-- ==== Sys2Proof/Word.lean ====
section
/-! DEFINITION. The word types of the µCOM-43 (spec 00_scope.md R3 to R5, 10_state.md R11, R14). -/

namespace Sys2Proof

/-- A 4-bit value: every data register, RAM cell and port (R11, R43, R49). -/
abbrev Nibble := BitVec 4

/-- A byte of program memory (R41); also the 8-bit data pointer `DPH:DPL` (R13). -/
abbrev Byte := BitVec 8

/-- An 11-bit program-memory address (R14). -/
abbrev PAddr := BitVec 11

end Sys2Proof
end

