-- ==== Sys2Proof/Syntax.lean ====
section
/-! DEFINITION. The instructions: one constructor per row of spec/opcode_table.json, in the table's
order (30_encoding.md R66). An operand is the field the encoding gives it (R62 to R65). -/

namespace Sys2Proof

/-- An instruction of the µCOM-43 with its operand fields. A bit or x operand is 2 bits (`first[1:0]`,
R62). CI, CLI and STM carry, beside the operand `n`, the prefix bits of their second byte (R65), so that
a second byte outside the pattern (R69) is still a term and is judged by the instruction's own rule. -/
inductive Instr where
  -- 40_basic_operations.md
  | nop | di | ei | rt | rts
  | tal | tla | taz | taw | tly | thx
  | xaz | xaw | xly | xhx | xls | xhr
  -- 41_arithmetic_logic.md
  | inc | dec | ad | ads | adc | das | daa | cma | cia | exl | rar | cm
  -- 42_memory_operations.md
  | li (n : BitVec 4)
  | ldz (n : BitVec 4)
  | ldi (imm8 : BitVec 8)
  | s | inm | dem | ind | ded
  -- 43_io_operations.md
  | op | ip | ia | oe
  | ocd (imm8 : BitVec 8)
  -- 44_bit_manipulation.md
  | fbf (b : BitVec 2)
  | fbt (b : BitVec 2)
  | tab (b : BitVec 2)
  | tmb (b : BitVec 2)
  | tpa (b : BitVec 2)
  | tpb (b : BitVec 2)
  | cmb (b : BitVec 2)
  | sfb (b : BitVec 2)
  | smb (b : BitVec 2)
  | seb (b : BitVec 2)
  | spb (b : BitVec 2)
  | rfb (b : BitVec 2)
  | rmb (b : BitVec 2)
  | reb (b : BitVec 2)
  | rpb (b : BitVec 2)
  -- 45_jump_call.md
  | jmp (addr11 : BitVec 11)
  | jcp (o : BitVec 6)
  | jpa
  | cal (addr11 : BitVec 11)
  | czp (n : BitVec 4)
  -- 46_control_status.md
  | clc | stc | xc | tc | ttm | tit
  /-- `pfx = second[7:6]`, which the encoding fixes at `10`, and `n = second[5:0]` (R65, R196). -/
  | stm (pfx : BitVec 2) (n : BitVec 6)
  -- 47_immediate.md
  /-- `pfx = second[7:4]`, which the encoding fixes at `1100`, and `n = second[3:0]` (R65, R200). -/
  | ci (pfx : BitVec 4) (n : BitVec 4)
  /-- `pfx = second[7:4]`, which the encoding fixes at `1110`, and `n = second[3:0]` (R65, R201). -/
  | cli (pfx : BitVec 4) (n : BitVec 4)
  -- 48_special.md
  | xm (x : BitVec 2)
  | xmi (x : BitVec 2)
  | xmd (x : BitVec 2)
  | lm (x : BitVec 2)
  /-- The unassigned first byte `0x1C`: in no table of the source, one byte long (R68). -/
  | unassigned1C
  /-- The unassigned first byte `0x45`: in no table of the source, one byte long (R68). -/
  | unassigned45
  deriving DecidableEq, Repr

end Sys2Proof
end

