-- ==== Sys2Proof/WellFormed.lean ====
section
/-! DEFINITION. Which terms of `Instr` are instructions of the source: the second byte's prefix is the
one the encoding fixes (30_encoding.md R65, R69) and the first byte is assigned (R68). -/

namespace Sys2Proof

/-- The fixed prefix of the second byte of `CI #n`, which encodes as `0x17, 0xC0+n` (R65). -/
def ciPrefix : BitVec 4 := 0b1100#4

/-- The fixed prefix of the second byte of `CLI #n`, which encodes as `0x16, 0xE0+n` (R65). -/
def cliPrefix : BitVec 4 := 0b1110#4

/-- The fixed prefix of the second byte of `STM #n`, which encodes as `0x14, 0x80+n` (R65). -/
def stmPrefix : BitVec 2 := 0b10#2

/-- The term is one of the 75 instructions with an operand its encoding admits. Every operand field
but the three prefixes takes all its values (R62 to R65). -/
def Instr.wellFormed : Instr → Bool
  | .ci pfx _ => pfx == ciPrefix
  | .cli pfx _ => pfx == cliPrefix
  | .stm pfx _ => pfx == stmPrefix
  | .unassigned1C | .unassigned45 => false
  | .nop | .di | .ei | .rt | .rts | .tal | .tla | .taz | .taw | .tly | .thx
  | .xaz | .xaw | .xly | .xhx | .xls | .xhr
  | .inc | .dec | .ad | .ads | .adc | .das | .daa | .cma | .cia | .exl | .rar | .cm
  | .li _ | .ldz _ | .ldi _ | .s | .inm | .dem | .ind | .ded
  | .op | .ip | .ia | .oe | .ocd _
  | .fbf _ | .fbt _ | .tab _ | .tmb _ | .tpa _ | .tpb _ | .cmb _
  | .sfb _ | .smb _ | .seb _ | .spb _ | .rfb _ | .rmb _ | .reb _ | .rpb _
  | .jmp _ | .jcp _ | .jpa | .cal _ | .czp _
  | .clc | .stc | .xc | .tc | .ttm | .tit
  | .xm _ | .xmi _ | .xmd _ | .lm _ => true

end Sys2Proof
end

