-- ==== Sys2Proof/Decode.lean ====
section
/-! DEFINITION. Decoding and encoding (30_encoding.md R60 to R71): the opcode map as a list of rows, the
decoder over a list of bytes, the encoder, and the table's words read as bytes. -/

namespace Sys2Proof

/-- Why bytes do not decode. -/
inductive DecodeError where
  /-- there is no byte -/
  | noByte
  /-- the first byte asks for a second (R60) and there is none -/
  | missingSecond (first : Byte)
  /-- no row of the opcode map matches the first byte; R66 leaves no such byte -/
  | noRow (first : Byte)
  deriving DecidableEq, Repr

/-- A row of the opcode map: `first &&& mask = pattern` selects it (R66), and `build` takes the operand
from the two bytes (R62 to R65). -/
structure OpcodeRow where
  pattern : Byte
  mask : Byte
  build : Byte → Byte → Instr

/-- How many bytes the instruction with this first byte has (R60). -/
def byteLength (first : Byte) : Nat :=
  if first = 0x14 ∨ first = 0x15 ∨ first = 0x16 ∨ first = 0x17 ∨ first = 0x1E
      ∨ (0xA0#8 ≤ first ∧ first ≤ 0xAF#8) then 2 else 1

/-- `b = first[1:0]`, the bit or x operand (R62). -/
def bitOperand (first : Byte) : BitVec 2 := first.extractLsb' 0 2

/-- `v[3:0]`: `n` of a first byte (R62) or of a prefixed second byte (R65). -/
def lowNibble (v : Byte) : BitVec 4 := v.extractLsb' 0 4

/-- `v[7:4]`: the prefix of the second byte of CI and CLI (R65). -/
def highNibble (v : Byte) : BitVec 4 := v.extractLsb' 4 4

/-- `v[5:0]`: the offset of JCP (R62) and the operand of STM (R65). -/
def offset6 (v : Byte) : BitVec 6 := v.extractLsb' 0 6

/-- `addr11 = first[2:0]:second[7:0]` (R63). -/
def address11 (first second : Byte) : BitVec 11 := first.extractLsb' 0 3 ++ second

/-- The rows of 40_basic_operations.md (R66). -/
def basicRows : List OpcodeRow :=
  [ ⟨0x00, 0xFF, fun _ _ => .nop⟩,
    ⟨0x01, 0xFF, fun _ _ => .di⟩,
    ⟨0x31, 0xFF, fun _ _ => .ei⟩,
    ⟨0x48, 0xFF, fun _ _ => .rt⟩,
    ⟨0x49, 0xFF, fun _ _ => .rts⟩,
    ⟨0x07, 0xFF, fun _ _ => .tal⟩,
    ⟨0x12, 0xFF, fun _ _ => .tla⟩,
    ⟨0x42, 0xFF, fun _ _ => .taz⟩,
    ⟨0x43, 0xFF, fun _ _ => .taw⟩,
    ⟨0x46, 0xFF, fun _ _ => .tly⟩,
    ⟨0x47, 0xFF, fun _ _ => .thx⟩,
    ⟨0x4A, 0xFF, fun _ _ => .xaz⟩,
    ⟨0x4B, 0xFF, fun _ _ => .xaw⟩,
    ⟨0x4E, 0xFF, fun _ _ => .xly⟩,
    ⟨0x4F, 0xFF, fun _ _ => .xhx⟩,
    ⟨0x4C, 0xFF, fun _ _ => .xls⟩,
    ⟨0x4D, 0xFF, fun _ _ => .xhr⟩ ]

/-- The rows of 41_arithmetic_logic.md (R66). -/
def arithmeticRows : List OpcodeRow :=
  [ ⟨0x0D, 0xFF, fun _ _ => .inc⟩,
    ⟨0x0F, 0xFF, fun _ _ => .dec⟩,
    ⟨0x08, 0xFF, fun _ _ => .ad⟩,
    ⟨0x09, 0xFF, fun _ _ => .ads⟩,
    ⟨0x19, 0xFF, fun _ _ => .adc⟩,
    ⟨0x0A, 0xFF, fun _ _ => .das⟩,
    ⟨0x06, 0xFF, fun _ _ => .daa⟩,
    ⟨0x10, 0xFF, fun _ _ => .cma⟩,
    ⟨0x11, 0xFF, fun _ _ => .cia⟩,
    ⟨0x18, 0xFF, fun _ _ => .exl⟩,
    ⟨0x30, 0xFF, fun _ _ => .rar⟩,
    ⟨0x0C, 0xFF, fun _ _ => .cm⟩ ]

/-- The rows of 42_memory_operations.md (R66). -/
def memoryRows : List OpcodeRow :=
  [ ⟨0x90, 0xF0, fun first _ => .li (lowNibble first)⟩,
    ⟨0x80, 0xF0, fun first _ => .ldz (lowNibble first)⟩,
    ⟨0x15, 0xFF, fun _ second => .ldi second⟩,
    ⟨0x02, 0xFF, fun _ _ => .s⟩,
    ⟨0x1D, 0xFF, fun _ _ => .inm⟩,
    ⟨0x1F, 0xFF, fun _ _ => .dem⟩,
    ⟨0x33, 0xFF, fun _ _ => .ind⟩,
    ⟨0x13, 0xFF, fun _ _ => .ded⟩ ]

/-- The rows of 43_io_operations.md (R66). -/
def ioRows : List OpcodeRow :=
  [ ⟨0x0E, 0xFF, fun _ _ => .op⟩,
    ⟨0x32, 0xFF, fun _ _ => .ip⟩,
    ⟨0x40, 0xFF, fun _ _ => .ia⟩,
    ⟨0x44, 0xFF, fun _ _ => .oe⟩,
    ⟨0x1E, 0xFF, fun _ second => .ocd second⟩ ]

/-- The rows of 44_bit_manipulation.md (R66). -/
def bitRows : List OpcodeRow :=
  [ ⟨0x20, 0xFC, fun first _ => .fbf (bitOperand first)⟩,
    ⟨0x5C, 0xFC, fun first _ => .fbt (bitOperand first)⟩,
    ⟨0x24, 0xFC, fun first _ => .tab (bitOperand first)⟩,
    ⟨0x58, 0xFC, fun first _ => .tmb (bitOperand first)⟩,
    ⟨0x54, 0xFC, fun first _ => .tpa (bitOperand first)⟩,
    ⟨0x50, 0xFC, fun first _ => .tpb (bitOperand first)⟩,
    ⟨0x34, 0xFC, fun first _ => .cmb (bitOperand first)⟩,
    ⟨0x7C, 0xFC, fun first _ => .sfb (bitOperand first)⟩,
    ⟨0x78, 0xFC, fun first _ => .smb (bitOperand first)⟩,
    ⟨0x74, 0xFC, fun first _ => .seb (bitOperand first)⟩,
    ⟨0x70, 0xFC, fun first _ => .spb (bitOperand first)⟩,
    ⟨0x6C, 0xFC, fun first _ => .rfb (bitOperand first)⟩,
    ⟨0x68, 0xFC, fun first _ => .rmb (bitOperand first)⟩,
    ⟨0x64, 0xFC, fun first _ => .reb (bitOperand first)⟩,
    ⟨0x60, 0xFC, fun first _ => .rpb (bitOperand first)⟩ ]

/-- The rows of 45_jump_call.md (R66). -/
def jumpRows : List OpcodeRow :=
  [ ⟨0xA0, 0xF8, fun first second => .jmp (address11 first second)⟩,
    ⟨0xC0, 0xC0, fun first _ => .jcp (offset6 first)⟩,
    ⟨0x41, 0xFF, fun _ _ => .jpa⟩,
    ⟨0xA8, 0xF8, fun first second => .cal (address11 first second)⟩,
    ⟨0xB0, 0xF0, fun first _ => .czp (lowNibble first)⟩ ]

/-- The rows of 46_control_status.md (R66). -/
def statusRows : List OpcodeRow :=
  [ ⟨0x0B, 0xFF, fun _ _ => .clc⟩,
    ⟨0x1B, 0xFF, fun _ _ => .stc⟩,
    ⟨0x1A, 0xFF, fun _ _ => .xc⟩,
    ⟨0x04, 0xFF, fun _ _ => .tc⟩,
    ⟨0x05, 0xFF, fun _ _ => .ttm⟩,
    ⟨0x03, 0xFF, fun _ _ => .tit⟩,
    ⟨0x14, 0xFF, fun _ second => .stm (second.extractLsb' 6 2) (offset6 second)⟩ ]

/-- The rows of 47_immediate.md (R66). -/
def immediateRows : List OpcodeRow :=
  [ ⟨0x17, 0xFF, fun _ second => .ci (highNibble second) (lowNibble second)⟩,
    ⟨0x16, 0xFF, fun _ second => .cli (highNibble second) (lowNibble second)⟩ ]

/-- The rows of 48_special.md (R66). -/
def specialRows : List OpcodeRow :=
  [ ⟨0x28, 0xFC, fun first _ => .xm (bitOperand first)⟩,
    ⟨0x3C, 0xFC, fun first _ => .xmi (bitOperand first)⟩,
    ⟨0x2C, 0xFC, fun first _ => .xmd (bitOperand first)⟩,
    ⟨0x38, 0xFC, fun first _ => .lm (bitOperand first)⟩ ]

/-- The rows of 30_encoding.md R68 (R66). -/
def unassignedRows : List OpcodeRow :=
  [ ⟨0x1C, 0xFF, fun _ _ => .unassigned1C⟩,
    ⟨0x45, 0xFF, fun _ _ => .unassigned45⟩ ]
/-- The opcode map (R66): 75 instructions and the two unassigned first bytes (R68). -/
def opcodeRows : List OpcodeRow :=
  basicRows ++ arithmeticRows ++ memoryRows ++ ioRows ++ bitRows ++ jumpRows ++ statusRows
    ++ immediateRows ++ specialRows ++ unassignedRows

/-- The row a first byte selects. -/
def OpcodeRow.selects (row : OpcodeRow) (first : Byte) : Bool := first &&& row.mask == row.pattern

/-- The instruction of a first byte and, where it has one, its second byte (R71). -/
def decodePair (first second : Byte) : Except DecodeError Instr :=
  match opcodeRows.find? (fun row => row.selects first) with
  | some row => .ok (row.build first second)
  | none => .error (.noRow first)

/-- The instruction at the head of a list of bytes, lowest address first, and the bytes after it (R60,
R71). Total: whatever the bytes are, the answer is an instruction or a named error. -/
def decode : List Byte → Except DecodeError (Instr × List Byte)
  | [] => .error .noByte
  | first :: rest =>
    if byteLength first = 2 then
      match rest with
      | [] => .error (.missingSecond first)
      | second :: rest' => (decodePair first second).map (fun i => (i, rest'))
    else (decodePair first 0).map (fun i => (i, rest))

/-- The bytes of an instruction, lowest address first (R46, R61 to R66). -/
def encode : Instr → List Byte
  | .nop => [0x00#8]
  | .di => [0x01#8]
  | .ei => [0x31#8]
  | .rt => [0x48#8]
  | .rts => [0x49#8]
  | .tal => [0x07#8]
  | .tla => [0x12#8]
  | .taz => [0x42#8]
  | .taw => [0x43#8]
  | .tly => [0x46#8]
  | .thx => [0x47#8]
  | .xaz => [0x4A#8]
  | .xaw => [0x4B#8]
  | .xly => [0x4E#8]
  | .xhx => [0x4F#8]
  | .xls => [0x4C#8]
  | .xhr => [0x4D#8]
  | .inc => [0x0D#8]
  | .dec => [0x0F#8]
  | .ad => [0x08#8]
  | .ads => [0x09#8]
  | .adc => [0x19#8]
  | .das => [0x0A#8]
  | .daa => [0x06#8]
  | .cma => [0x10#8]
  | .cia => [0x11#8]
  | .exl => [0x18#8]
  | .rar => [0x30#8]
  | .cm => [0x0C#8]
  | .li n => [0b1001#4 ++ n]
  | .ldz n => [0b1000#4 ++ n]
  | .ldi imm8 => [0x15#8, imm8]
  | .s => [0x02#8]
  | .inm => [0x1D#8]
  | .dem => [0x1F#8]
  | .ind => [0x33#8]
  | .ded => [0x13#8]
  | .op => [0x0E#8]
  | .ip => [0x32#8]
  | .ia => [0x40#8]
  | .oe => [0x44#8]
  | .ocd imm8 => [0x1E#8, imm8]
  | .fbf b => [0b001000#6 ++ b]
  | .fbt b => [0b010111#6 ++ b]
  | .tab b => [0b001001#6 ++ b]
  | .tmb b => [0b010110#6 ++ b]
  | .tpa b => [0b010101#6 ++ b]
  | .tpb b => [0b010100#6 ++ b]
  | .cmb b => [0b001101#6 ++ b]
  | .sfb b => [0b011111#6 ++ b]
  | .smb b => [0b011110#6 ++ b]
  | .seb b => [0b011101#6 ++ b]
  | .spb b => [0b011100#6 ++ b]
  | .rfb b => [0b011011#6 ++ b]
  | .rmb b => [0b011010#6 ++ b]
  | .reb b => [0b011001#6 ++ b]
  | .rpb b => [0b011000#6 ++ b]
  | .jmp a => [0b10100#5 ++ a.extractLsb' 8 3, a.extractLsb' 0 8]
  | .jcp o => [0b11#2 ++ o]
  | .jpa => [0x41#8]
  | .cal a => [0b10101#5 ++ a.extractLsb' 8 3, a.extractLsb' 0 8]
  | .czp n => [0b1011#4 ++ n]
  | .clc => [0x0B#8]
  | .stc => [0x1B#8]
  | .xc => [0x1A#8]
  | .tc => [0x04#8]
  | .ttm => [0x05#8]
  | .tit => [0x03#8]
  | .stm pfx n => [0x14#8, pfx ++ n]
  | .ci pfx n => [0x17#8, pfx ++ n]
  | .cli pfx n => [0x16#8, pfx ++ n]
  | .xm x => [0b001010#6 ++ x]
  | .xmi x => [0b001111#6 ++ x]
  | .xmd x => [0b001011#6 ++ x]
  | .lm x => [0b001110#6 ++ x]
  | .unassigned1C => [0x1C#8]
  | .unassigned45 => [0x45#8]

/-- The two bytes of a word of the opcode table: the first byte is bits 7..0, the second bits 15..8, and
every bit from `nbits` on is 0. -/
def tableBytes (nbits w : Nat) : List Byte :=
  [BitVec.ofNat 8 (w % 2 ^ nbits), BitVec.ofNat 8 (w % 2 ^ nbits / 256)]

/-- The instruction the decoder reads from a word of the opcode table. -/
def decodeTableWord (nbits w : Nat) : Option Instr :=
  match decode (tableBytes nbits w) with
  | .ok (i, _) => some i
  | .error _ => none

end Sys2Proof
end

