-- ==== Sys2Proof/Config.lean ====
section
/-! DEFINITION. The implementation parameters the source leaves open (00_scope.md R3) and the free
values: a port read (20_memory.md R47) and the content of RAM at reset (70_reset_and_hazards.md R251).
The values the spec adopts stand in Machine/Adopted.lean. -/

namespace Sys2Proof

/-- CARRY_POLICY (R120): which of INC, DEC, AD, DAA, DAS write C beside ADS and ADC. -/
inductive CarryPolicy where
  /-- all five write C: the source's Flags column read literally -/
  | table
  /-- none of the five writes C -/
  | nec
  deriving DecidableEq, Repr

/-- TIMER_MODEL (60_exceptions.md R241, R243). -/
inductive TimerModel where
  /-- the timer expires at some unspecified later step boundary -/
  | loose
  /-- the timer is counted down by the cycles of the processor's steps -/
  | cycleExact
  deriving DecidableEq, Repr

/-- RESERVED_OPERAND (30_encoding.md R69): a CI, CLI or STM whose second byte has a wrong prefix. -/
inductive ReservedOperandPolicy where
  /-- executing it is the model fault ReservedOperand -/
  | fault
  /-- the operand is read from the low bits, whatever the prefix holds -/
  | ignorePrefix
  deriving DecidableEq, Repr

/-- A run of populated data addresses: `size` cells from `base` on (RAM_MAP, R43). -/
structure RamRegion where
  base : Nat
  size : Nat
  deriving DecidableEq, Repr

/-- PORT_MAP (R47 to R49): the number of the port behind each letter, and which port numbers can be read
and which written. Instructions name A (IA, TPA), C and D (OCD) and E (OE, SEB, REB) by letter; a program
reaches the other ports by their number in DPL. -/
structure PortMap where
  portA : BitVec 4
  portB : BitVec 4
  portC : BitVec 4
  portD : BitVec 4
  portE : BitVec 4
  portF : BitVec 4
  portG : BitVec 4
  portH : BitVec 4
  portI : BitVec 4
  readable : List (BitVec 4)
  writable : List (BitVec 4)
  deriving DecidableEq, Repr

/-- The parameters of R3, each a field, but for ROM, which is the field `rom` of State (R41). -/
structure Config where
  /-- ACC_W, the width of the data registers; the types have it at 4, which `Config.legal` requires -/
  accW : Nat
  /-- PC_W, the width of the program counter; the types have it at 11, which `Config.legal` requires -/
  pcW : Nat
  /-- ROM_SIZE, the number of populated program bytes; DESIGN CHOICE, safe: they are at the addresses
  below it, and the others are unprogrammed (logs 1 and 2) -/
  romSize : Nat
  ramMap : List RamRegion
  stackDepth : Nat
  portMap : PortMap
  carryPolicy : CarryPolicy
  intVector : BitVec 11
  resetPc : BitVec 11
  timerModel : TimerModel
  reservedOperand : ReservedOperandPolicy
  /-- END_PC, given per program (R262); read by claims only -/
  endPc : Option (BitVec 11)
  deriving DecidableEq, Repr

/-- The values of the parameters that the rules have a meaning for: data registers and `RAM[DP]` of 4
bits, a pc of 11 (R3, R11, R14), program memory within `2^PC_W` and cells within the 8-bit addresses. -/
def Config.legal (cfg : Config) : Prop :=
  cfg.accW = 4 ∧ cfg.pcW = 11 ∧ cfg.romSize ≤ 2 ^ cfg.pcW ∧
    ∀ g ∈ cfg.ramMap, g.base + g.size ≤ 2 ^ (2 * cfg.accW)

/-- FREE VALUE: the value the environment supplies for the `k`-th port read that no queued input
answers, "supplied by the environment for this read, under no law" (R47; notes/assumptions/9.md). It
has no body, so nothing can be proved of it. -/
opaque Config.portDraw : Nat → BitVec 4

/-- FREE VALUE: the value each RAM cell holds after the `k`-th reset until something is stored in it, "a
draw made once at reset" (R251, decision D33; notes/assumptions/5.md). It has no body, so nothing can be
proved of it. -/
opaque Config.ramDraw : Nat → BitVec 8 → BitVec 4

end Sys2Proof
end

