-- ==== Sys2Proof/Machine/Adopted.lean ====
section
/-! DEFINITION. The parameter values the spec adopts (00_scope.md R3) and the values the model names
for the registers and latches whose reset value it leaves open (10_state.md R29; notes/assumptions/3.md,
4.md, 6.md). -/

namespace Sys2Proof.Machine

/-- PORT_MAP as adopted in 20_memory.md R49: A = 0, B = 1, C = 2, D = 3, E = 4 to I = 8; A and B can be
read, C and D read and written, E to I written; 9 to 15 are absent. -/
def adoptedPortMap : PortMap :=
  { portA := 0, portB := 1, portC := 2, portD := 3, portE := 4
    portF := 5, portG := 6, portH := 7, portI := 8
    readable := [0, 1, 2, 3], writable := [2, 3, 4, 5, 6, 7, 8] }

/-- The adopted parameter values (R3). -/
def adoptedConfig : Config :=
  { accW := 4, pcW := 11, romSize := 2048
    ramMap := [{ base := 0, size := 256 }], stackDepth := 3, portMap := adoptedPortMap
    carryPolicy := .table, intVector := 0x03C, resetPc := 0x000, timerModel := .loose
    reservedOperand := .fault, endPc := none }

/-- DESIGN CHOICE, unsafe: the value at reset of every nibble whose reset value R29 leaves unspecified
(the data registers and the latches PO[0], PO[1], PO[9..15]; logs 3 and 6). -/
def unspecifiedNibble : Nibble := 0

/-- DESIGN CHOICE, unsafe: the value at reset of C, CS and T, which R29 leaves unspecified (log 4). -/
def unspecifiedBit : Bool := false

end Sys2Proof.Machine
end

