-- ==== Sys2Proof/Machine/State.lean ====
section
/-! DEFINITION. The machine's state as plain data (10_state.md R10 to R29), its faults (60_exceptions.md
R220 to R225), its refusals, and the state after reset (R29, R250). -/

namespace Sys2Proof.Machine

/-- A memory of `w`-bit cells as a list of (address, cell), addresses strictly rising (`Memory.wf`). An
unlisted address holds no value of the list: a program byte is unprogrammed, a RAM cell not written since
reset. `Memory 8` is a list of `Host.Cell`. -/
abbrev Memory (w : Nat) := List (Nat × BitVec w)

/-- TIMER (R25). -/
inductive Timer where
  | idle
  /-- `k` cycles are left; under TIMER_MODEL = loose the number is carried and not interpreted -/
  | running (k : Nat)
  deriving DecidableEq, Repr

/-- What the environment and the timer do at the boundary before one processor step: `int_request`
(R226) and `timer_expire` (R241), either, both or none. -/
structure Boundary where
  intRequest : Bool
  timerExpire : Bool
  deriving DecidableEq, Repr

/-- The state: the tuple of R10, then what the model carries beside it. -/
structure State where
  /-- accumulator (R11) -/
  acc : Nibble
  /-- data pointer, high nibble (R11, R13) -/
  dph : Nibble
  /-- data pointer, low nibble; numbers the port in OP, IP, TPB (R11, R13) -/
  dpl : Nibble
  z : Nibble
  w : Nibble
  x : Nibble
  y : Nibble
  /-- FLAG, four program-defined bits (R20) -/
  flag : Nibble
  /-- exchanged with DPH by XHR (R12) -/
  r : Nibble
  /-- exchanged with DPL by XLS (R12) -/
  s : Nibble
  /-- program counter (R14) -/
  pc : PAddr
  /-- carry (R16) -/
  c : Bool
  /-- carry save (R17) -/
  cs : Bool
  /-- timer flag T (R18) -/
  t : Bool
  /-- interrupt enable IE (R19) -/
  ie : Bool
  /-- IF, the latched interrupt request (R19) -/
  intf : Bool
  /-- return addresses, the top first (R22) -/
  stack : List PAddr
  /-- the next instruction is to be passed over (R23) -/
  skip : Bool
  /-- first byte of the previously executed instruction, or 0x00 (R24) -/
  prev : Byte
  /-- the timer's countdown (R25) -/
  timer : Timer
  /-- data memory (R26): the cells written since reset; another holds its draw (`cell`, log 5) -/
  ram : Memory 4
  /-- how many resets there have been since `State.reset`, the index of RAM's draws (R251, log 5) -/
  resets : Nat
  /-- output latches PO[0..15] (R27) -/
  po : Vector Nibble 16
  /-- program memory (R41), a parameter no step writes; an unlisted address is unprogrammed (log 1) -/
  rom : Memory 8
  /-- the parameters of R3, which no step writes (log 2) -/
  cfg : Config
  /-- what happens at the boundaries before the next steps, the nearest first (log 8) -/
  events : List Boundary
  /-- values ready for the next port reads, the nearest first (log 9) -/
  inputs : List Nibble
  /-- index of the next free port value `Config.portDraw` (log 9) -/
  draws : Nat
  /-- output history: the port writes (port, value) in program order (R48, log 10) -/
  out : List (Nibble × Nibble)
  deriving DecidableEq, Repr

/-- The model faults (R220): a step that raises one has no successor state. The spec assigns them to
behaviour the source leaves undefined, so each is safe: the hardware goes on where the model stops. -/
inductive Fault where
  /-- raised by executing the first byte 0x1C or 0x45 (R221); safe -/
  | illegalOpcode (first : Byte)
  /-- raised by CI, CLI, STM on a second byte with a wrong prefix, under RESERVED_OPERAND = fault (R221); safe -/
  | reservedOperand (first second : Byte)
  /-- raised by CAL, CZP and interrupt entry when STACK holds STACK_DEPTH entries (R222); safe -/
  | stackOverflow (v : PAddr)
  /-- raised by RT and RTS on an empty STACK (R223); safe -/
  | stackUnderflow
  /-- raised by a fetch from an address ROM does not define (R224); safe -/
  | fetchUnprogrammed (a : PAddr)
  /-- raised by a data access outside RAM_MAP (R225); safe -/
  | unmappedRam (addr : Byte)
  /-- raised by reading a port that is not readable or writing one that is not writable (R225); safe -/
  | unmappedPort (p : Nibble)
  deriving DecidableEq, Repr

/-- The refusals. -/
inductive Refusal where
  /-- raised by `exec` for an instruction that has no meaning yet; safe. No arm of this model uses it. -/
  | notModelled (mnemonic : String)
  deriving DecidableEq, Repr

/-- What a step or a meaning answers. -/
abbrev Result := Host.Outcome State Fault Refusal

/-- The machine right after reset (R29, R250): `pc = RESET_PC`, IE = IF = SKIP = 0, PREV = 0x00, TIMER
idle, STACK empty, PO[2..8] = 0; the other registers, bits and latches, which R29 leaves unspecified, have
the value their log entry names (3, 4, 6); no RAM cell is listed, so that each holds its draw (5); program
memory, schedule, inputs and history are empty (1, 8, 9, 10). -/
def State.reset : State :=
  { acc := unspecifiedNibble, dph := unspecifiedNibble, dpl := unspecifiedNibble
    z := unspecifiedNibble, w := unspecifiedNibble, x := unspecifiedNibble, y := unspecifiedNibble
    flag := unspecifiedNibble, r := unspecifiedNibble, s := unspecifiedNibble
    pc := adoptedConfig.resetPc
    c := unspecifiedBit, cs := unspecifiedBit, t := unspecifiedBit
    ie := false, intf := false, stack := [], skip := false, prev := 0x00, timer := .idle
    ram := [], resets := 0
    po := #v[unspecifiedNibble, unspecifiedNibble, 0, 0, 0, 0, 0, 0, 0, unspecifiedNibble,
      unspecifiedNibble, unspecifiedNibble, unspecifiedNibble, unspecifiedNibble,
      unspecifiedNibble, unspecifiedNibble]
    rom := [], cfg := adoptedConfig, events := [], inputs := [], draws := 0, out := [] }

end Sys2Proof.Machine
end

