-- ==== Sys2Proof/Machine/Ops.lean ====
section
/-! DEFINITION. The operations every instruction is written over: memories, ports, the stack, fetch, the
interrupt, the timer, the skip and the reset (10_state.md, 20_memory.md, 30_encoding.md R72 to R75,
60_exceptions.md). -/

namespace Sys2Proof.Machine

/-- Go on with a value, or end the step in the fault that stood in its place (R220). -/
def andThen {α : Type} (x : Except Fault α) (k : α → Result) : Result :=
  match x with
  | .ok a => k a
  | .error f => .fault f

/-! ### Memories as canonical lists -/

/-- The cell listed at an address. -/
def Memory.read {w : Nat} : Memory w → Nat → Option (BitVec w)
  | [], _ => none
  | (b, v) :: m, a => if a = b then some v else Memory.read m a

/-- Write a cell and keep the canonical form. -/
def Memory.write {w : Nat} : Memory w → Nat → BitVec w → Memory w
  | [], a, v => [(a, v)]
  | (b, u) :: m, a, v =>
    if a < b then (a, v) :: (b, u) :: m
    else if a = b then (a, v) :: m
    else (b, u) :: Memory.write m a v

/-- The canonical form: addresses strictly rising and below `size`. -/
def Memory.wf {w : Nat} (size : Nat) (m : Memory w) : Bool :=
  decide (m.Pairwise (fun p q => p.1 < q.1)) && m.all (fun p => decide (p.1 < size))

/-- The content of a data cell (R26): what was last stored there since reset, else the draw made at
reset (R251). -/
def cell (s : State) (a : Byte) : Nibble :=
  (Memory.read s.ram a.toNat).getD (Config.ramDraw s.resets a)

/-- The byte of program memory at an address, `none` where ROM does not define one (R41). That none is
defined at or above ROM_SIZE, which R3 gives as a number of bytes, is the model's DESIGN CHOICE (logs 1
and 2). -/
def progByte (s : State) (a : PAddr) : Option Byte :=
  if a.toNat < s.cfg.romSize then Memory.read s.rom a.toNat else none

/-- `RAM[a] <- v`. -/
def State.storeCell (s : State) (a : Byte) (v : Nibble) : State :=
  { s with ram := Memory.write s.ram a.toNat v }

/-- The address holds a cell: it is in RAM_MAP (R43). -/
def ramMapped (cfg : Config) (a : Byte) : Bool :=
  cfg.ramMap.any (fun g => decide (g.base ≤ a.toNat ∧ a.toNat < g.base + g.size))

/-- `MemRead(a, 1)` (R43). -/
def memRead (s : State) (a : Byte) : Except Fault Nibble :=
  if ramMapped s.cfg a then .ok (cell s a) else .error (.unmappedRam a)

/-- `MemWrite(a, 1, v)` (R43). -/
def memWrite (s : State) (a : Byte) (v : Nibble) : Except Fault State :=
  if ramMapped s.cfg a then .ok (s.storeCell a v) else .error (.unmappedRam a)

/-- `ProgRead(a)` (R41). -/
def progRead (s : State) (a : PAddr) : Except Fault Byte :=
  match progByte s a with
  | some v => .ok v
  | none => .error (.fetchUnprogrammed a)

/-- Program bytes placed from outside the machine from an address on (R263: ROM is fixed before the
run). No step does this. -/
def placeBytes : PAddr → List Byte → State → State
  | _, [], s => s
  | a, v :: vs, s => placeBytes (a + 1) vs { s with rom := Memory.write s.rom a.toNat v }

/-! ### Ports -/

/-- The latch `PO[p]` (R27). -/
def latch (s : State) (p : Nibble) : Nibble := s.po[p.toNat]'p.isLt

/-- `PO[p] <- v`, with the pair appended to the output history (R48). -/
def State.drivePort (s : State) (p v : Nibble) : State :=
  { s with po := s.po.set p.toNat v p.isLt, out := s.out ++ [(p, v)] }

/-- `PortWrite(p, v)` (R48). -/
def portWrite (s : State) (p v : Nibble) : Except Fault State :=
  if s.cfg.portMap.writable.contains p then .ok (s.drivePort p v) else .error (.unmappedPort p)

/-- The environment's answer to a port read: the next queued value, else the next free value (R47). -/
def draw (s : State) : Nibble :=
  match s.inputs with
  | v :: _ => v
  | [] => Config.portDraw s.draws

/-- The state after a draw: only the environment's own fields move (R47: "A read changes no state of
the machine"). -/
def State.drawn (s : State) : State :=
  match s.inputs with
  | _ :: rest => { s with inputs := rest }
  | [] => { s with draws := s.draws + 1 }

/-- `PortRead(p)` (R47). -/
def portRead (s : State) (p : Nibble) : Except Fault (Nibble × State) :=
  if s.cfg.portMap.readable.contains p then .ok (draw s, s.drawn) else .error (.unmappedPort p)

/-! ### The subroutine stack -/

/-- `push(v)` (R22). -/
def push (s : State) (v : PAddr) : Except Fault State :=
  if s.cfg.stackDepth ≤ s.stack.length then .error (.stackOverflow v)
  else .ok { s with stack := v :: s.stack }

/-- `pop()` (R22). -/
def pop (s : State) : Except Fault (PAddr × State) :=
  match s.stack with
  | [] => .error .stackUnderflow
  | v :: rest => .ok (v, { s with stack := rest })

/-- `push(pc); pc <- target`: a call (R184, R185) saves the advanced pc (D20). -/
def callTo (s : State) (target : PAddr) : Except Fault State :=
  match push s s.pc with
  | .ok t => .ok { t with pc := target }
  | .error f => .error f

/-- `pc <- pop()`: the return from a call and from an interrupt handler (R103, R186, R234). It restores
nothing but pc. -/
def returnFrom (s : State) : Except Fault State :=
  match pop s with
  | .ok (v, t) => .ok { t with pc := v }
  | .error f => .error f

/-! ### The interrupt, the machine's only exception entry (R220, R226 to R234) -/

/-- `int_request`: `IF <- 1`, whatever IF held (R226). -/
def intRequest (s : State) : State := { s with intf := true }

/-- The condition under which a step takes the interrupt (R230). -/
def acceptInterrupt (s : State) : Bool :=
  s.ie && s.intf && !s.skip && (highNibble s.prev != 0x9) && (s.prev != 0x31)

/-- Interrupt entry (R232): `push(pc); pc <- INT_VECTOR; IF <- 0; IE <- 0; PREV <- 0x00`. -/
def interruptEntry (s : State) : Except Fault State :=
  match callTo s s.cfg.intVector with
  | .ok t => .ok { t with intf := false, ie := false, prev := 0x00 }
  | .error f => .error f

/-! ### The timer (R240 to R243) -/

/-- The timer sets T and falls idle; nothing where it is not running. -/
def expireTimer (s : State) : State :=
  match s.timer with
  | .idle => s
  | .running _ => { s with t := true, timer := .idle }

/-- `timer_expire`, a step of the timer under TIMER_MODEL = loose only (R241). -/
def timerExpire (s : State) : State :=
  match s.cfg.timerModel with
  | .loose => expireTimer s
  | .cycleExact => s

/-- `n` cycles pass for a running timer (R243). -/
def tick (n : Nat) (s : State) : State :=
  match s.timer with
  | .idle => s
  | .running k => if n < k then { s with timer := .running (k - n) } else { s with t := true, timer := .idle }

/-- The cycles of a processor step, counted under TIMER_MODEL = cycle_exact only (R243). After an
executed STM, and only then, PREV is 0x14; its cycles are not counted against its own period. -/
def countCycles (n : Nat) (s : State) : State :=
  match s.cfg.timerModel with
  | .loose => s
  | .cycleExact => if s.prev = 0x14 then s else tick n s

/-! ### The boundary before a step (R72, R262) -/

/-- The events of one boundary; the two are independent (R231). -/
def applyBoundary (b : Boundary) (s : State) : State :=
  let s₁ := if b.timerExpire then timerExpire s else s
  if b.intRequest then intRequest s₁ else s₁

/-- The boundary before the next step: the nearest entry of the schedule. Where the schedule is
exhausted no request comes and a running timer expires, so that one that runs does expire (R241;
notes/assumptions/8.md). -/
def boundary (s : State) : State :=
  match s.events with
  | [] => timerExpire s
  | b :: rest => applyBoundary b { s with events := rest }

/-! ### Fetch, skip and the instruction cycle (R72 to R75) -/

/-- The bytes of one instruction as fetched: the first, and the second where R60 asks for one. -/
structure Fetched where
  first : Byte
  tail : List Byte
  deriving DecidableEq, Repr

/-- All bytes of the instruction, lowest address first. -/
def Fetched.bytes (f : Fetched) : List Byte := f.first :: f.tail

/-- Step 2 of R72: one byte, and a second only where the first asks for it (R73), at `pc + 1` modulo
2048 (R15). -/
def fetch (s : State) : Except Fault Fetched :=
  match progRead s s.pc with
  | .error f => .error f
  | .ok first =>
    if byteLength first = 2 then
      match progRead s (s.pc + 1) with
      | .error f => .error f
      | .ok second => .ok { first := first, tail := [second] }
    else .ok { first := first, tail := [] }

/-- Step 3 of R72: `pc <- (pc + L) mod 2048`. -/
def State.advanced (s : State) (len : Nat) : State := { s with pc := s.pc + BitVec.ofNat 11 len }

/-- Step 4 of R72 with SKIP = 1: the instruction is passed over whole and nothing is executed (R74). -/
def passOver (f : Fetched) (s : State) : State :=
  countCycles f.bytes.length { s.advanced f.bytes.length with skip := false, prev := 0x00 }

/-- The end of an executed instruction: PREV is its first byte (R75), and its cycles pass (R243). The
meaning has run with the old PREV in the state, which LI reads as `prev` (notes/assumptions/12.md). -/
def retire (f : Fetched) (t : State) : State :=
  countCycles f.bytes.length { t with prev := f.first }

/-- `retire` where the instruction answered a next state; a fault ends the step as it is (R220). -/
def retireResult (f : Fetched) (r : Result) : Result :=
  match r with
  | .next t => .next (retire f t)
  | .fault x => .fault x
  | .refused x => .refused x

/-- The step that takes the interrupt (R232); entry is one cycle long (R243). -/
def interruptStep (s : State) : Result :=
  andThen (interruptEntry s) (fun t => .next (countCycles 1 t))

/-! ### Reset -/

/-- Reset as an event of the environment (R250): every component is put into the reset state, on a
running machine too (R251), and RAM holds new draws. ROM, the parameters and the environment's own fields
are no components. -/
def resetEvent (s : State) : State :=
  { State.reset with
    pc := s.cfg.resetPc, resets := s.resets + 1, rom := s.rom, cfg := s.cfg
    events := s.events, inputs := s.inputs, draws := s.draws, out := s.out }

end Sys2Proof.Machine
end

