-- ==== Sys2Proof/Machine/Flags.lean ====
section
/-! DEFINITION. The flag and skip computations: exact sums and their carry (41_arithmetic_logic.md R120 to
R133), the carry policy, and the wrap-around conditions that skip. -/

namespace Sys2Proof.Machine

/-- The exact sum of two nibbles and a carry in, 0 to 31. -/
def exactSum (a b : Nibble) (carryIn : Bool) : Nat := a.toNat + b.toNat + carryIn.toNat

/-- `r[3:0]` of a sum. -/
def sumNibble (r : Nat) : Nibble := BitVec.ofNat 4 r

/-- `r[4]` of a sum of at most 31: the carry out of bit 3. -/
def sumCarry (r : Nat) : Bool := decide (16 ≤ r)

/-- C after INC, DEC, AD, DAA or DAS: the carry or borrow under CARRY_POLICY = table, unchanged under
nec (R120). -/
def policyCarry (s : State) (carry : Bool) : Bool :=
  match s.cfg.carryPolicy with
  | .table => carry
  | .nec => s.c

/-- The wrap of an increment: the new value is 0. -/
def wrapsUp (new : Nibble) : Bool := new == 0x0

/-- The wrap of a decrement: the new value is 0xF. -/
def wrapsDown (new : Nibble) : Bool := new == 0xF

/-- `(v + 1) mod 16`. -/
def incNibble (v : Nibble) : Nibble := v + 1

/-- `(v + 15) mod 16`. -/
def decNibble (v : Nibble) : Nibble := v + 15

end Sys2Proof.Machine
end

