-- ==== Sys2Proof/Machine/Operands.lean ====
section
/-! DEFINITION. The operand forms: the data cell at DP, bits of a nibble, jump targets and the prefixed
second byte (00_scope.md R4, R6, R8; 42_memory_operations.md; 45_jump_call.md; 30_encoding.md R65). -/

namespace Sys2Proof.Machine

/-- `DP = DPH:DPL` (R13). -/
def dp (s : State) : Byte := s.dph ++ s.dpl

/-- `DP <- v`, that is `DPH <- v[7:4]; DPL <- v[3:0]` (R6). -/
def State.setDp (s : State) (v : Byte) : State := { s with dph := highNibble v, dpl := lowNibble v }

/-- `RAM[DP]` as a source, the only data addressing mode. -/
def loadDp (s : State) : Except Fault Nibble := memRead s (dp s)

/-- `RAM[DP] <- v`. -/
def storeDp (s : State) (v : Nibble) : Except Fault State := memWrite s (dp s) v

/-- `v[b]`, the bit of weight `2^b` (R4). -/
def bitOf (v : Nibble) (b : BitVec 2) : Bool := v.getLsbD b.toNat

/-- `v with bit b := 1`, that is `v or (1 << b)`. -/
def setBit (v : Nibble) (b : BitVec 2) : Nibble := v ||| (1#4 <<< b.toNat)

/-- `v with bit b := 0`, that is `v and not (1 << b)`. -/
def clearBit (v : Nibble) (b : BitVec 2) : Nibble := v &&& ~~~(1#4 <<< b.toNat)

/-- `pc[10:6] : o`, an offset in the page of the advanced pc (R180(d), R182). -/
def pageTarget (pc : PAddr) (o : BitVec 6) : PAddr := pc.extractLsb' 6 5 ++ o

/-- `pc[10:6] : ACC : 00`, the ACC-th 4-byte slot of the page (R183). -/
def indexedTarget (pc : PAddr) (acc : Nibble) : PAddr := pageTarget pc (acc ++ 0b00#2)

/-- `00000 : n : 00`, the n-th 4-byte slot of page 0 (R185). -/
def zeroPageTarget (n : BitVec 4) : PAddr := 0b00000#5 ++ n ++ 0b00#2

/-- `DPH xor zext_4(x)`, the post-modification of XM, XMI, XMD, LM (R205(b)). -/
def xorHigh (dph : Nibble) (x : BitVec 2) : Nibble := dph ^^^ x.setWidth 4

/-- The check of a prefixed second byte: a wrong prefix raises ReservedOperand under RESERVED_OPERAND =
fault and is ignored under ignore_prefix (R69). -/
def checkPrefix (s : State) (prefixOk : Bool) (first second : Byte) : Except Fault Unit :=
  match s.cfg.reservedOperand with
  | .ignorePrefix => .ok ()
  | .fault => if prefixOk then .ok () else .error (.reservedOperand first second)

end Sys2Proof.Machine
end

