-- ==== Sys2Proof/Machine/Arithmetic.lean ====
section
/-! DEFINITION. Arithmetic and logic (41_arithmetic_logic.md R120 to R132). -/

namespace Sys2Proof.Machine

/-- INC (R121): skip when the new ACC is 0; C by R120. -/
def execInc (s : State) : Result :=
  let r := exactSum s.acc 1 false
  .next { s with acc := sumNibble r, skip := sumCarry r, c := policyCarry s (sumCarry r) }

/-- DEC (R122): skip when the new ACC is 0xF; the borrow, stored true, by R120. -/
def execDec (s : State) : Result :=
  let new := decNibble s.acc
  .next { s with acc := new, skip := wrapsDown new, c := policyCarry s (s.acc == 0x0) }

/-- AD (R123): `ACC + RAM[DP]`, skip on carry; C by R120 and not added. -/
def execAd (s : State) : Result :=
  andThen (loadDp s) (fun m =>
    let r := exactSum s.acc m false
    .next { s with acc := sumNibble r, skip := sumCarry r, c := policyCarry s (sumCarry r) })

/-- ADS (R124): `ACC + RAM[DP] + C`, skip on carry; C under every policy. -/
def execAds (s : State) : Result :=
  andThen (loadDp s) (fun m =>
    let r := exactSum s.acc m s.c
    .next { s with acc := sumNibble r, skip := sumCarry r, c := sumCarry r })

/-- ADC (R125): `ACC + RAM[DP] + C`, never skips; C under every policy. -/
def execAdc (s : State) : Result :=
  andThen (loadDp s) (fun m =>
    let r := exactSum s.acc m s.c
    .next { s with acc := sumNibble r, c := sumCarry r })

/-- DAS (R126): `ACC + 10` modulo 16, unconditionally (decision D11); C by R120. -/
def execDas (s : State) : Result :=
  let r := exactSum s.acc 10 false
  .next { s with acc := sumNibble r, c := policyCarry s (sumCarry r) }

/-- DAA (R127): `ACC + 6` modulo 16, unconditionally (decision D11); C by R120. -/
def execDaa (s : State) : Result :=
  let r := exactSum s.acc 6 false
  .next { s with acc := sumNibble r, c := policyCarry s (sumCarry r) }

/-- CMA (R128): `ACC <- ACC xor 0xF`. -/
def execCma (s : State) : Result := .next { s with acc := s.acc ^^^ 0xF }

/-- CIA (R129): `ACC <- ((ACC xor 0xF) + 1) mod 16`; no flag, no skip. -/
def execCia (s : State) : Result := .next { s with acc := incNibble (s.acc ^^^ 0xF) }

/-- EXL (R130): `ACC <- ACC xor RAM[DP]`. -/
def execExl (s : State) : Result :=
  andThen (loadDp s) (fun m => .next { s with acc := s.acc ^^^ m })

/-- RAR (R131): one place right through C, `ACC <- C : ACC[3:1]; C <- ACC[0]`, under every policy. -/
def execRar (s : State) : Result :=
  .next { s with acc := BitVec.ofBool s.c ++ s.acc.extractLsb' 1 3, c := s.acc.getLsbD 0 }

/-- CM (R132): `SKIP <- (ACC = RAM[DP])`. -/
def execCm (s : State) : Result :=
  andThen (loadDp s) (fun m => .next { s with skip := s.acc == m })

end Sys2Proof.Machine
end

