-- ==== Sys2Proof/Machine/Basic.lean ====
section
/-! DEFINITION. The basic operations (40_basic_operations.md R100 to R116). A meaning runs with pc already
advanced and SKIP = 0 (R72), and leaves what it does not name unchanged. -/

namespace Sys2Proof.Machine

/-- NOP (R100). -/
def execNop (s : State) : Result := .next s

/-- DI (R101): `IE <- 0`; a latched request stays. -/
def execDi (s : State) : Result := .next { s with ie := false }

/-- EI (R102): `IE <- 1`; acceptance right after it is held off by PREV = 0x31 (R230). -/
def execEi (s : State) : Result := .next { s with ie := true }

/-- RT (R103): `pc <- pop()`. -/
def execRt (s : State) : Result := andThen (returnFrom s) .next

/-- RTS (R104): `pc <- pop(); SKIP <- 1`. -/
def execRts (s : State) : Result := andThen (returnFrom s) (fun t => .next { t with skip := true })

/-- TAL (R105): `DPL <- ACC`. -/
def execTal (s : State) : Result := .next { s with dpl := s.acc }

/-- TLA (R106): `ACC <- DPL`. -/
def execTla (s : State) : Result := .next { s with acc := s.dpl }

/-- TAZ (R107): `Z <- ACC`. -/
def execTaz (s : State) : Result := .next { s with z := s.acc }

/-- TAW (R108): `W <- ACC`. -/
def execTaw (s : State) : Result := .next { s with w := s.acc }

/-- TLY (R109): `Y <- DPL`. -/
def execTly (s : State) : Result := .next { s with y := s.dpl }

/-- THX (R110): `X <- DPH`. -/
def execThx (s : State) : Result := .next { s with x := s.dph }

/-- XAZ (R111): `swap(ACC, Z)`. -/
def execXaz (s : State) : Result := .next { s with acc := s.z, z := s.acc }

/-- XAW (R112): `swap(ACC, W)`. -/
def execXaw (s : State) : Result := .next { s with acc := s.w, w := s.acc }

/-- XLY (R113): `swap(DPL, Y)`. -/
def execXly (s : State) : Result := .next { s with dpl := s.y, y := s.dpl }

/-- XHX (R114): `swap(DPH, X)`. -/
def execXhx (s : State) : Result := .next { s with dph := s.x, x := s.dph }

/-- XLS (R115): `swap(DPL, S)`, the reading of decision D3. -/
def execXls (s : State) : Result := .next { s with dpl := s.s, s := s.dpl }

/-- XHR (R116): `swap(DPH, R)`, the reading of decision D3. -/
def execXhr (s : State) : Result := .next { s with dph := s.r, r := s.dph }

end Sys2Proof.Machine
end

