-- ==== Sys2Proof/Machine/Bits.lean ====
section
/-! DEFINITION. Bit manipulation (44_bit_manipulation.md R160 to R174). A test writes SKIP and nothing
else; a set or reset changes one bit and never skips. -/

namespace Sys2Proof.Machine

/-- FBF b (R160): `SKIP <- (FLAG[b] = 0)`. -/
def execFbf (b : BitVec 2) (s : State) : Result := .next { s with skip := !bitOf s.flag b }

/-- FBT b (R161): `SKIP <- (FLAG[b] = 1)`. -/
def execFbt (b : BitVec 2) (s : State) : Result := .next { s with skip := bitOf s.flag b }

/-- TAB b (R162): `SKIP <- (ACC[b] = 1)`. -/
def execTab (b : BitVec 2) (s : State) : Result := .next { s with skip := bitOf s.acc b }

/-- TMB b (R163): `SKIP <- (RAM[DP][b] = 1)`. -/
def execTmb (b : BitVec 2) (s : State) : Result :=
  andThen (loadDp s) (fun m => .next { s with skip := bitOf m b })

/-- TPA b (R164): `v <- PortRead(port A); SKIP <- (v[b] = 1)`. -/
def execTpa (b : BitVec 2) (s : State) : Result :=
  andThen (portRead s s.cfg.portMap.portA) (fun vt => .next { vt.2 with skip := bitOf vt.1 b })

/-- TPB b (R165): `v <- PortRead(DPL); SKIP <- (v[b] = 1)`; the port is the one DPL names. -/
def execTpb (b : BitVec 2) (s : State) : Result :=
  andThen (portRead s s.dpl) (fun vt => .next { vt.2 with skip := bitOf vt.1 b })

/-- CMB b (R166): `SKIP <- (ACC[b] = RAM[DP][b])`. -/
def execCmb (b : BitVec 2) (s : State) : Result :=
  andThen (loadDp s) (fun m => .next { s with skip := bitOf s.acc b == bitOf m b })

/-- SFB b (R167): `FLAG <- FLAG with bit b := 1`. -/
def execSfb (b : BitVec 2) (s : State) : Result := .next { s with flag := setBit s.flag b }

/-- SMB b (R168): one read and one write of `RAM[DP]`, bit b := 1. -/
def execSmb (b : BitVec 2) (s : State) : Result :=
  andThen (loadDp s) (fun m => andThen (storeDp s (setBit m b)) .next)

/-- SEB b (R169): `PortWrite(port E, PO[port E] with bit b := 1)`; the latch is read, not the pins. -/
def execSeb (b : BitVec 2) (s : State) : Result :=
  andThen (portWrite s s.cfg.portMap.portE (setBit (latch s s.cfg.portMap.portE) b)) .next

/-- SPB b (R170): the stated effect "(no operation)" (90_conflicts.md C5). -/
def execSpb (_b : BitVec 2) (s : State) : Result := .next s

/-- RFB b (R171): `FLAG <- FLAG with bit b := 0`. -/
def execRfb (b : BitVec 2) (s : State) : Result := .next { s with flag := clearBit s.flag b }

/-- RMB b (R172): one read and one write of `RAM[DP]`, bit b := 0. -/
def execRmb (b : BitVec 2) (s : State) : Result :=
  andThen (loadDp s) (fun m => andThen (storeDp s (clearBit m b)) .next)

/-- REB b (R173): `PortWrite(port E, PO[port E] with bit b := 0)`. -/
def execReb (b : BitVec 2) (s : State) : Result :=
  andThen (portWrite s s.cfg.portMap.portE (clearBit (latch s s.cfg.portMap.portE) b)) .next

/-- RPB b (R174): the stated effect "(no operation)" (90_conflicts.md C5). -/
def execRpb (_b : BitVec 2) (s : State) : Result := .next s

end Sys2Proof.Machine
end

