-- ==== Sys2Proof/Machine/DataMemory.lean ====
section
/-! DEFINITION. The memory operations (42_memory_operations.md R140 to R147). -/

namespace Sys2Proof.Machine

/-- LI n (R140): loads only where the previously executed instruction was no LI. PREV in `s` is still
that instruction's first byte (`retire`). DESIGN CHOICE, unsafe: after `LI; JMP` to an LI the target loads,
as D19, R72 and the pseudocode of R140 have it (PREV is the jump's byte), where the prose of R75, R140 (c)
and R260's table says that it is suppressed (notes/assumptions/22.md). -/
def execLi (n : BitVec 4) (s : State) : Result :=
  if highNibble s.prev = 0x9 then .next s else .next { s with acc := n }

/-- LDZ n (R141): `DPH <- 0; DPL <- n`. -/
def execLdz (n : BitVec 4) (s : State) : Result := .next { s with dph := 0x0, dpl := n }

/-- LDI imm8 (R142): `DPH <- imm8[7:4]; DPL <- imm8[3:0]`. -/
def execLdi (imm8 : BitVec 8) (s : State) : Result := .next (s.setDp imm8)

/-- S (R143): `RAM[DP] <- ACC`. -/
def execS (s : State) : Result := andThen (storeDp s s.acc) .next

/-- INM (R144): `RAM[DP] <- RAM[DP] + 1`, skip when the new cell is 0. -/
def execInm (s : State) : Result :=
  andThen (loadDp s) (fun m =>
    andThen (storeDp s (incNibble m)) (fun t => .next { t with skip := wrapsUp (incNibble m) }))

/-- DEM (R145): `RAM[DP] <- RAM[DP] - 1`, skip when the new cell is 0xF. -/
def execDem (s : State) : Result :=
  andThen (loadDp s) (fun m =>
    andThen (storeDp s (decNibble m)) (fun t => .next { t with skip := wrapsDown (decNibble m) }))

/-- IND (R146): `DPL <- DPL + 1`, skip when the new DPL is 0; no carry into DPH. -/
def execInd (s : State) : Result :=
  .next { s with dpl := incNibble s.dpl, skip := wrapsUp (incNibble s.dpl) }

/-- DED (R147): `DPL <- DPL - 1`, skip when the new DPL is 0xF; no borrow from DPH. -/
def execDed (s : State) : Result :=
  .next { s with dpl := decNibble s.dpl, skip := wrapsDown (decNibble s.dpl) }

end Sys2Proof.Machine
end

