-- ==== Sys2Proof/Machine/Immediate.lean ====
section
/-! DEFINITION. The immediate compares (47_immediate.md R200, R201). -/

namespace Sys2Proof.Machine

/-- CI n (R200): after the check of the prefix, `SKIP <- (ACC = n)`. -/
def execCi (pfx n : BitVec 4) (s : State) : Result :=
  andThen (checkPrefix s (pfx == ciPrefix) 0x17 (pfx ++ n)) (fun _ =>
    .next { s with skip := s.acc == n })

/-- CLI n (R201): after the check of the prefix, `SKIP <- (DPL = n)`. -/
def execCli (pfx n : BitVec 4) (s : State) : Result :=
  andThen (checkPrefix s (pfx == cliPrefix) 0x16 (pfx ++ n)) (fun _ =>
    .next { s with skip := s.dpl == n })

end Sys2Proof.Machine
end

