-- ==== Sys2Proof/Machine/InOut.lean ====
section
/-! DEFINITION. The I/O operations (43_io_operations.md R150 to R154). None skips or touches a flag. -/

namespace Sys2Proof.Machine

/-- OP (R150): `PortWrite(DPL, ACC)`. -/
def execOp (s : State) : Result := andThen (portWrite s s.dpl s.acc) .next

/-- IP (R151): `ACC <- PortRead(DPL)`. -/
def execIp (s : State) : Result :=
  andThen (portRead s s.dpl) (fun vt => .next { vt.2 with acc := vt.1 })

/-- IA (R152): `ACC <- PortRead(port A)`. -/
def execIa (s : State) : Result :=
  andThen (portRead s s.cfg.portMap.portA) (fun vt => .next { vt.2 with acc := vt.1 })

/-- OE (R153): `PortWrite(port E, ACC)`. -/
def execOe (s : State) : Result := andThen (portWrite s s.cfg.portMap.portE s.acc) .next

/-- OCD imm8 (R154): the low nibble to port C, then the high nibble to port D (decision D10). -/
def execOcd (imm8 : BitVec 8) (s : State) : Result :=
  andThen (portWrite s s.cfg.portMap.portC (lowNibble imm8)) (fun t =>
    andThen (portWrite t s.cfg.portMap.portD (highNibble imm8)) .next)

end Sys2Proof.Machine
end

