-- ==== Sys2Proof/Machine/Jumps.lean ====
section
/-! DEFINITION. Jumps and calls (45_jump_call.md R180 to R186). pc in the state is already the address
of the next instruction, so the current page is the page of that address (R180(d), decision D17). -/

namespace Sys2Proof.Machine

/-- JMP addr11 (R181): `pc <- addr11`. -/
def execJmp (addr11 : BitVec 11) (s : State) : Result := .next { s with pc := addr11 }

/-- JCP o (R182): `pc <- pc[10:6] : o`. -/
def execJcp (o : BitVec 6) (s : State) : Result := .next { s with pc := pageTarget s.pc o }

/-- JPA (R183): `pc <- pc[10:6] : ACC : 00`. -/
def execJpa (s : State) : Result := .next { s with pc := indexedTarget s.pc s.acc }

/-- CAL addr11 (R184): `push(pc); pc <- addr11`. -/
def execCal (addr11 : BitVec 11) (s : State) : Result := andThen (callTo s addr11) .next

/-- CZP n (R185): `push(pc); pc <- 00000 : n : 00`. -/
def execCzp (n : BitVec 4) (s : State) : Result := andThen (callTo s (zeroPageTarget n)) .next

end Sys2Proof.Machine
end

