-- ==== Sys2Proof/Machine/Special.lean ====
section
/-! DEFINITION. The memory exchanges and the load (48_special.md R205 to R209): the access uses DP as it
stands at the start; then DPH is XORed; then DPL is stepped and the skip decided (R205(c)). -/

namespace Sys2Proof.Machine

/-- The part common to XM, XMI and XMD: exchange ACC with `RAM[DP]`, then `DPH <- DPH xor x`. -/
def exchangeCell (x : BitVec 2) (s : State) : Except Fault State :=
  match loadDp s with
  | .error f => .error f
  | .ok m =>
    match storeDp s s.acc with
    | .error f => .error f
    | .ok t => .ok { t with acc := m, dph := xorHigh s.dph x }

/-- XM x (R206). -/
def execXm (x : BitVec 2) (s : State) : Result := andThen (exchangeCell x s) .next

/-- XMI x (R207): then `DPL <- DPL + 1`, skip when the new DPL is 0. -/
def execXmi (x : BitVec 2) (s : State) : Result :=
  andThen (exchangeCell x s) (fun t =>
    .next { t with dpl := incNibble t.dpl, skip := wrapsUp (incNibble t.dpl) })

/-- XMD x (R208): then `DPL <- DPL - 1`, skip when the new DPL is 0xF. -/
def execXmd (x : BitVec 2) (s : State) : Result :=
  andThen (exchangeCell x s) (fun t =>
    .next { t with dpl := decNibble t.dpl, skip := wrapsDown (decNibble t.dpl) })

/-- LM x (R209): `ACC <- RAM[DP]; DPH <- DPH xor x`. -/
def execLm (x : BitVec 2) (s : State) : Result :=
  andThen (loadDp s) (fun m => .next { s with acc := m, dph := xorHigh s.dph x })

end Sys2Proof.Machine
end

