-- ==== Sys2Proof/Machine/Status.lean ====
section
/-! DEFINITION. Control and status (46_control_status.md R190 to R196). -/

namespace Sys2Proof.Machine

/-- CLC (R190): `C <- 0`. -/
def execClc (s : State) : Result := .next { s with c := false }

/-- STC (R191): `C <- 1`. -/
def execStc (s : State) : Result := .next { s with c := true }

/-- XC (R192): `swap(C, CS)`, the only access to CS. -/
def execXc (s : State) : Result := .next { s with c := s.cs, cs := s.c }

/-- TC (R193): `SKIP <- (C = 1)`. -/
def execTc (s : State) : Result := .next { s with skip := s.c }

/-- TTM (R194): `SKIP <- (T = 1)`; T is not cleared (decision D13). -/
def execTtm (s : State) : Result := .next { s with skip := s.t }

/-- TIT (R195): `SKIP <- (IF = 1); IF <- 0` (decision D14). -/
def execTit (s : State) : Result := .next { s with skip := s.intf, intf := false }

/-- STM n (R196): after the check of the prefix, `T <- 0; TIMER <- running((n + 1) * 63)`. -/
def execStm (pfx : BitVec 2) (n : BitVec 6) (s : State) : Result :=
  andThen (checkPrefix s (pfx == stmPrefix) 0x14 (pfx ++ n)) (fun _ =>
    .next { s with t := false, timer := .running ((n.toNat + 1) * 63) })

end Sys2Proof.Machine
end

