-- ==== Sys2Proof/Machine/Unassigned.lean ====
section
/-! DEFINITION. The two unassigned first bytes: executing one is the model fault IllegalOpcode
(30_encoding.md R68, 60_exceptions.md R221). -/

namespace Sys2Proof.Machine

/-- First byte `0x1C` (R68): `raise IllegalOpcode(0x1C)`. -/
def execUnassigned1C (_s : State) : Result := .fault (.illegalOpcode 0x1C)

/-- First byte `0x45` (R68): `raise IllegalOpcode(0x45)`. -/
def execUnassigned45 (_s : State) : Result := .fault (.illegalOpcode 0x45)

end Sys2Proof.Machine
end

