-- ==== Sys2Proof/Machine/Dispatch.lean ====
section
/-! DEFINITION. One arm per instruction: "decode and execute" of 30_encoding.md R72, step 4. -/

namespace Sys2Proof.Machine

def exec (i : Instr) (s : State) : Host.Outcome State Fault Refusal :=
  match i with
  | .nop => Sys2Proof.Machine.execNop s
  | .di => Sys2Proof.Machine.execDi s
  | .ei => Sys2Proof.Machine.execEi s
  | .rt => Sys2Proof.Machine.execRt s
  | .rts => Sys2Proof.Machine.execRts s
  | .tal => Sys2Proof.Machine.execTal s
  | .tla => Sys2Proof.Machine.execTla s
  | .taz => Sys2Proof.Machine.execTaz s
  | .taw => Sys2Proof.Machine.execTaw s
  | .tly => Sys2Proof.Machine.execTly s
  | .thx => Sys2Proof.Machine.execThx s
  | .xaz => Sys2Proof.Machine.execXaz s
  | .xaw => Sys2Proof.Machine.execXaw s
  | .xly => Sys2Proof.Machine.execXly s
  | .xhx => Sys2Proof.Machine.execXhx s
  | .xls => Sys2Proof.Machine.execXls s
  | .xhr => Sys2Proof.Machine.execXhr s
  | .inc => Sys2Proof.Machine.execInc s
  | .dec => Sys2Proof.Machine.execDec s
  | .ad => Sys2Proof.Machine.execAd s
  | .ads => Sys2Proof.Machine.execAds s
  | .adc => Sys2Proof.Machine.execAdc s
  | .das => Sys2Proof.Machine.execDas s
  | .daa => Sys2Proof.Machine.execDaa s
  | .cma => Sys2Proof.Machine.execCma s
  | .cia => Sys2Proof.Machine.execCia s
  | .exl => Sys2Proof.Machine.execExl s
  | .rar => Sys2Proof.Machine.execRar s
  | .cm => Sys2Proof.Machine.execCm s
  | .li n => Sys2Proof.Machine.execLi n s
  | .ldz n => Sys2Proof.Machine.execLdz n s
  | .ldi imm8 => Sys2Proof.Machine.execLdi imm8 s
  | .s => Sys2Proof.Machine.execS s
  | .inm => Sys2Proof.Machine.execInm s
  | .dem => Sys2Proof.Machine.execDem s
  | .ind => Sys2Proof.Machine.execInd s
  | .ded => Sys2Proof.Machine.execDed s
  | .op => Sys2Proof.Machine.execOp s
  | .ip => Sys2Proof.Machine.execIp s
  | .ia => Sys2Proof.Machine.execIa s
  | .oe => Sys2Proof.Machine.execOe s
  | .ocd imm8 => Sys2Proof.Machine.execOcd imm8 s
  | .fbf b => Sys2Proof.Machine.execFbf b s
  | .fbt b => Sys2Proof.Machine.execFbt b s
  | .tab b => Sys2Proof.Machine.execTab b s
  | .tmb b => Sys2Proof.Machine.execTmb b s
  | .tpa b => Sys2Proof.Machine.execTpa b s
  | .tpb b => Sys2Proof.Machine.execTpb b s
  | .cmb b => Sys2Proof.Machine.execCmb b s
  | .sfb b => Sys2Proof.Machine.execSfb b s
  | .smb b => Sys2Proof.Machine.execSmb b s
  | .seb b => Sys2Proof.Machine.execSeb b s
  | .spb b => Sys2Proof.Machine.execSpb b s
  | .rfb b => Sys2Proof.Machine.execRfb b s
  | .rmb b => Sys2Proof.Machine.execRmb b s
  | .reb b => Sys2Proof.Machine.execReb b s
  | .rpb b => Sys2Proof.Machine.execRpb b s
  | .jmp addr11 => Sys2Proof.Machine.execJmp addr11 s
  | .jcp o => Sys2Proof.Machine.execJcp o s
  | .jpa => Sys2Proof.Machine.execJpa s
  | .cal addr11 => Sys2Proof.Machine.execCal addr11 s
  | .czp n => Sys2Proof.Machine.execCzp n s
  | .clc => Sys2Proof.Machine.execClc s
  | .stc => Sys2Proof.Machine.execStc s
  | .xc => Sys2Proof.Machine.execXc s
  | .tc => Sys2Proof.Machine.execTc s
  | .ttm => Sys2Proof.Machine.execTtm s
  | .tit => Sys2Proof.Machine.execTit s
  | .stm pfx n => Sys2Proof.Machine.execStm pfx n s
  | .ci pfx n => Sys2Proof.Machine.execCi pfx n s
  | .cli pfx n => Sys2Proof.Machine.execCli pfx n s
  | .xm x => Sys2Proof.Machine.execXm x s
  | .xmi x => Sys2Proof.Machine.execXmi x s
  | .xmd x => Sys2Proof.Machine.execXmd x s
  | .lm x => Sys2Proof.Machine.execLm x s
  | .unassigned1C => Sys2Proof.Machine.execUnassigned1C s
  | .unassigned45 => Sys2Proof.Machine.execUnassigned45 s

end Sys2Proof.Machine
end

