-- ==== Sys2Proof/Machine/Step.lean ====
section
/-! DEFINITION. One step of the processor (30_encoding.md R72), after the environment's events at the
boundary before it, and the placing of one instruction where the next fetch finds it. -/

namespace Sys2Proof.Machine

/-- Steps 2 to 4 of R72: fetch, advance pc, then pass over or decode and execute. Bytes that no row of
the opcode map decodes would raise IllegalOpcode; R66 leaves none. -/
def fetchAndExecute (s : State) : Result :=
  match fetch s with
  | .error x => .fault x
  | .ok f =>
    if s.skip then .next (passOver f s)
    else
      match decode f.bytes with
      | .ok (i, _) => retireResult f (exec i (s.advanced f.bytes.length))
      | .error _ => .fault (.illegalOpcode f.first)

/-- One step (R72): the boundary's events, then the interrupt if it is accepted, else the instruction
at pc. -/
def step (s : State) : Host.Outcome State Fault Refusal :=
  if acceptInterrupt (boundary s) then interruptStep (boundary s) else fetchAndExecute (boundary s)

/-- `s` with the instruction of a word of the opcode table in program memory at pc (log 1). -/
def State.withFetchWord (s : State) (nbits w : Nat) : State := placeBytes s.pc (tableBytes nbits w) s

end Sys2Proof.Machine
end

