-- ==== Sys2Proof/Safety.lean ====
section
/-! DEFINITION. The words the statements are written in: the invariant of the machine, the lists of
instructions that may change a piece of state, and what a run and its environment are. -/

namespace Sys2Proof

/-- The instructions that can set SKIP (30_encoding.md R74). -/
def Instr.canSkip : Instr → Bool
  | .rts | .inc | .dec | .ad | .ads | .cm | .inm | .dem | .ind | .ded
  | .fbf _ | .fbt _ | .tab _ | .tmb _ | .tpa _ | .tpb _ | .cmb _
  | .tc | .ttm | .tit | .ci _ _ | .cli _ _ | .xmi _ | .xmd _ => true
  | _ => false

/-- The instructions that write C under every carry policy (10_state.md R16). -/
def Instr.alwaysWritesC : Instr → Bool
  | .clc | .stc | .xc | .rar | .ads | .adc => true
  | _ => false

/-- The instructions that write C under CARRY_POLICY = table only (R120). -/
def Instr.policyWritesC : Instr → Bool
  | .inc | .dec | .ad | .daa | .das => true
  | _ => false

/-- The writers of ACC (10_state.md R11). -/
def Instr.writesAcc : Instr → Bool
  | .tla | .xaz | .xaw | .inc | .dec | .ad | .ads | .adc | .das | .daa | .cma | .cia | .exl | .rar
  | .li _ | .ip | .ia | .xm _ | .xmi _ | .xmd _ | .lm _ => true
  | _ => false

/-- The writers of DPH (R11). -/
def Instr.writesDph : Instr → Bool
  | .ldz _ | .ldi _ | .xhx | .xhr | .xm _ | .xmi _ | .xmd _ | .lm _ => true
  | _ => false

/-- The writers of DPL (R11). -/
def Instr.writesDpl : Instr → Bool
  | .tal | .ldz _ | .ldi _ | .xly | .xls | .ind | .ded | .xmi _ | .xmd _ => true
  | _ => false

/-- The instructions that write a cell of RAM (42_memory_operations.md, 44_bit_manipulation.md,
48_special.md). -/
def Instr.storesRam : Instr → Bool
  | .s | .inm | .dem | .smb _ | .rmb _ | .xm _ | .xmi _ | .xmd _ => true
  | _ => false

/-- The instructions that write a port (20_memory.md R48). -/
def Instr.writesPort : Instr → Bool
  | .op | .oe | .ocd _ | .seb _ | .reb _ => true
  | _ => false

/-- The instructions that read a port (R47). -/
def Instr.readsPort : Instr → Bool
  | .ip | .ia | .tpa _ | .tpb _ => true
  | _ => false

/-- The instructions that reach `RAM[DP]` (10_state.md R26). -/
def Instr.accessesRam : Instr → Bool
  | .ad | .ads | .adc | .exl | .cm | .s | .inm | .dem | .tmb _ | .cmb _ | .smb _ | .rmb _
  | .xm _ | .xmi _ | .xmd _ | .lm _ => true
  | _ => false

/-- The instructions that write pc (10_state.md R15). -/
def Instr.writesPc : Instr → Bool
  | .jmp _ | .jcp _ | .jpa | .cal _ | .czp _ | .rt | .rts => true
  | _ => false

/-- The instructions that use the stack (45_jump_call.md R186). -/
def Instr.usesStack : Instr → Bool
  | .cal _ | .czp _ | .rt | .rts => true
  | _ => false

/-- The first bytes whose instructions can set SKIP. -/
def firstByteCanSkip (first : Byte) : Bool :=
  match decodePair first 0x00 with
  | .ok i => i.canSkip
  | .error _ => false

namespace Machine

/-- The data and program memories are in canonical form. -/
def State.memWf (s : State) : Prop :=
  Memory.wf 256 s.ram = true ∧ Memory.wf 2048 s.rom = true

/-- A running timer has a count an STM can have left: 1 to 4032 (46_control_status.md R196). -/
def Timer.legal : Timer → Prop
  | .idle => True
  | .running k => 0 < k ∧ k ≤ 4032

/-- The invariant of the machine, kept by every step. -/
structure State.Inv (s : State) : Prop where
  /-- the parameters are ones the rules have a meaning for (00_scope.md R3) -/
  params : s.cfg.legal
  /-- both memories are canonical -/
  mem : s.memWf
  /-- the stack is within its depth (10_state.md R22) -/
  depth : s.stack.length ≤ s.cfg.stackDepth
  /-- the count of a running timer is legal -/
  count : s.timer.legal
  /-- T stays set only while the timer is idle: STM clears T as it starts it (R196, R242) -/
  expired : s.t = true → s.timer = .idle
  /-- a pending skip was set by an instruction that can skip, and PREV names it (R74, R75) -/
  pending : s.skip = true → firstByteCanSkip s.prev = true

/-- The end of a run at END_PC, at the start of a step (70_reset_and_hazards.md R262). -/
def State.atEnd (s : State) : Prop := s.cfg.endPc = some s.pc ∧ s.skip = false

/-- The launch premise "that the request event never occurs" (60_exceptions.md, opening): no boundary of
the schedule holds a request. -/
def State.noRequests (s : State) : Prop := ∀ b ∈ s.events, b.intRequest = false

/-- The port writes (port, value) of an instruction from a state, in order (43_io_operations.md R150, R153,
R154, 44_bit_manipulation.md R169, R173). -/
def portWrites (i : Instr) (s : State) : List (Nibble × Nibble) :=
  match i with
  | .op => [(s.dpl, s.acc)]
  | .oe => [(s.cfg.portMap.portE, s.acc)]
  | .ocd imm8 => [(s.cfg.portMap.portC, lowNibble imm8), (s.cfg.portMap.portD, highNibble imm8)]
  | .seb b => [(s.cfg.portMap.portE, setBit (latch s s.cfg.portMap.portE) b)]
  | .reb b => [(s.cfg.portMap.portE, clearBit (latch s s.cfg.portMap.portE) b)]
  | _ => []

/-- The port an instruction reads from a state (43_io_operations.md R151, R152, 44_bit_manipulation.md
R164, R165). -/
def portReadBy (i : Instr) (s : State) : Option Nibble :=
  match i with
  | .ip | .tpb _ => some s.dpl
  | .ia | .tpa _ => some s.cfg.portMap.portA
  | _ => none

/-- The value the latch of a port has after these writes: the last one for it, else what it was. -/
def lastWritten (writes : List (Nibble × Nibble)) (p old : Nibble) : Nibble :=
  (writes.reverse.lookup p).getD old

/-- The next state of a result, changed by a function; a fault or a refusal as it is. -/
def mapNext (f : State → State) : Result → Result
  | .next t => .next (f t)
  | .fault x => .fault x
  | .refused x => .refused x

end Machine

end Sys2Proof
end

