-- ==== Sys2Proof/Certificates/Slice0/Obligations.lean ====
section
/-! DEFINITION. The statements for the provers. Each docstring names the rule of spec/ it formalises or
says that the statement rests on the spec's own decision or on the model's choice. -/

open Sys2Proof Sys2Proof.Machine

/-! ### Encoding -/

/-- 30_encoding.md sections 1 to 4: no bit of an encoding is dropped. -/
def Obligations.DecodeInvertsEncode : Prop :=
  ∀ (i : Instr) (rest : List Byte), decode (encode i ++ rest) = .ok (i, rest)

/-- 30_encoding.md sections 1 to 4: every bit pattern has one meaning. -/
def Obligations.EncodeInvertsDecode : Prop :=
  ∀ (bytes : List Byte) (i : Instr) (rest : List Byte),
    decode bytes = .ok (i, rest) → encode i ++ rest = bytes

/-- R60. -/
def Obligations.InstructionLengthByFirstByte : Prop :=
  ∀ (first : Byte) (tail : List Byte) (i : Instr) (rest : List Byte),
    decode (first :: tail) = .ok (i, rest) →
      (encode i).length =
          (if first ∈ [0x14#8, 0x15#8, 0x16#8, 0x17#8, 0x1E#8]
              ∨ (0xA0 ≤ first.toNat ∧ first.toNat ≤ 0xAF) then 2 else 1) ∧
        tail.length + 1 = (encode i).length + rest.length

/-- 30_encoding.md R68, R69, R71 (decisions D15, D16): decoding is total, and what it gives is one of the
75 instructions but for the two unassigned first bytes and the wrong prefixes of CI, CLI, STM. -/
def Obligations.DecodingIsTotal : Prop :=
  ∀ (first second : Byte) (rest : List Byte), ∃ i rest',
    decode (first :: second :: rest) = .ok (i, rest') ∧
      (i.wellFormed = false ↔
        first = 0x1C ∨ first = 0x45 ∨ (first = 0x17 ∧ second.toNat / 16 ≠ 0xC)
          ∨ (first = 0x16 ∧ second.toNat / 16 ≠ 0xE) ∨ (first = 0x14 ∧ second.toNat / 64 ≠ 2))

/-- Words written out in the spec (95_test_vectors.md E2, E3, E6 to E8, E10, E15, E16). -/
def Obligations.WordsOfTheSpecDecode : Prop :=
  decode [0x95] = .ok (.li 5, []) ∧ decode [0x17, 0xCA] = .ok (.ci 0xC 10, []) ∧
  decode [0xA1, 0x23] = .ok (.jmp 0x123, []) ∧ decode [0xA9, 0x23] = .ok (.cal 0x123, []) ∧
  decode [0x16, 0xE9] = .ok (.cli 0xE 9, []) ∧ decode [0x14, 0x89] = .ok (.stm 2 9, []) ∧
  decode [0xB1] = .ok (.czp 1, []) ∧ decode [0x8C] = .ok (.ldz 12, []) ∧
  decode [0x26] = .ok (.tab 2, []) ∧ decode [0x7E] = .ok (.sfb 2, [])

/-! ### The instruction cycle -/

/-- R72 (decision D18): where no interrupt is taken and no skip is pending, a step runs the instruction
the bytes at pc decode to, with pc advanced past it; then PREV is its first byte and its cycles count. -/
def Obligations.StepRunsTheDecodedInstruction : Prop :=
  ∀ (s : State) (f : Fetched) (i : Instr) (rest : List Byte),
    acceptInterrupt (boundary s) = false → (boundary s).skip = false →
    fetch (boundary s) = .ok f → decode f.bytes = .ok (i, rest) →
      step s =
        (match exec i { boundary s with pc := (boundary s).pc + BitVec.ofNat 11 f.bytes.length } with
          | .next t => .next (countCycles f.bytes.length { t with prev := f.first })
          | .fault x => .fault x
          | .refused x => .refused x)

/-- R74 (decision D18): a pending skip passes over one whole instruction, whatever its bytes. The cycles of
its fetch count (R243, general knowledge K13, log 15). -/
def Obligations.SkipPassesOverOneInstruction : Prop :=
  ∀ (s : State) (f : Fetched),
    (boundary s).skip = true → fetch (boundary s) = .ok f →
      step s = .next (countCycles (byteLength f.first)
        { boundary s with
          pc := (boundary s).pc + BitVec.ofNat 11 (byteLength f.first), skip := false, prev := 0x00 })

/-- R230, R232, R222 (decisions D4, D6): where the five terms of R230 hold the step is interrupt entry,
which faults on a full stack; where one fails it is the step of the instruction at pc. Entry counts one
cycle (R243, general knowledge K13, log 15). -/
def Obligations.InterruptIsTakenExactlyWhenAcceptable : Prop :=
  ∀ s b : State, b = boundary s →
    (b.ie = true → b.intf = true → b.skip = false → b.prev.toNat / 16 ≠ 9 → b.prev ≠ 0x31 →
      step s =
        if b.stack.length < b.cfg.stackDepth then
          .next (countCycles 1 { b with
            stack := b.pc :: b.stack, pc := b.cfg.intVector, intf := false, ie := false, prev := 0x00 })
        else .fault (.stackOverflow b.pc)) ∧
    (b.ie = false ∨ b.intf = false ∨ b.skip = true ∨ b.prev.toNat / 16 = 9 ∨ b.prev = 0x31 →
      acceptInterrupt b = false ∧ step s = fetchAndExecute b)

/-- R41, R73, R224, R231 (decision D8): what a fetch reads; a fetch fault ends the step where no interrupt
is taken, under a skip too. R3 gives ROM_SIZE as a number of bytes; that no address at or above it defines
a byte is the model's DESIGN CHOICE (logs 1 and 2). -/
def Obligations.FetchReadsOneOrTwoBytes : Prop :=
  (∀ s : State,
    (progByte s s.pc = none → fetch s = .error (.fetchUnprogrammed s.pc)) ∧
    (∀ first, progByte s s.pc = some first → byteLength first = 1 →
      fetch s = .ok { first := first, tail := [] }) ∧
    (∀ first, progByte s s.pc = some first → byteLength first = 2 →
      progByte s (s.pc + 1) = none → fetch s = .error (.fetchUnprogrammed (s.pc + 1))) ∧
    (∀ first second, progByte s s.pc = some first → byteLength first = 2 →
      progByte s (s.pc + 1) = some second → fetch s = .ok { first := first, tail := [second] })) ∧
  (∀ (s : State) (a : PAddr), s.cfg.romSize ≤ a.toNat → progByte s a = none) ∧
  (∀ (s : State) (x : Fault),
    acceptInterrupt (boundary s) = false → fetch (boundary s) = .error x → step s = .fault x)

/-- R226, R231, R241 (decisions D6, D13, D34); the schedule, and that an exhausted one makes no request and
lets a running timer expire under loose, are the model's choice (log 8). -/
def Obligations.BoundaryEventsActOnTheirFlagsOnly : Prop :=
  (∀ (s : State) (b : Boundary) (rest : List Boundary), s.events = b :: rest →
    boundary s = { s with
      events := rest, intf := (boundary s).intf, t := (boundary s).t, timer := (boundary s).timer } ∧
    (boundary s).intf = (s.intf || b.intRequest) ∧
    (∀ k, b.timerExpire = true → s.cfg.timerModel = .loose → s.timer = .running k →
      (boundary s).t = true ∧ (boundary s).timer = .idle) ∧
    (b.timerExpire = false ∨ s.cfg.timerModel = .cycleExact ∨ s.timer = .idle →
      (boundary s).t = s.t ∧ (boundary s).timer = s.timer)) ∧
  (∀ s : State, s.events = [] →
    (∀ k, s.cfg.timerModel = .loose → s.timer = .running k →
      boundary s = { s with t := true, timer := .idle }) ∧
    (s.cfg.timerModel = .cycleExact ∨ s.timer = .idle → boundary s = s))

/-- R243 (general knowledge K13): cycles under cycle_exact, and none under loose. -/
def Obligations.CyclesCountDownTheTimer : Prop :=
  ∀ (s : State) (n : Nat),
    (s.cfg.timerModel = .loose ∨ s.timer = .idle ∨ s.prev = 0x14 → countCycles n s = s) ∧
    (∀ k, s.cfg.timerModel = .cycleExact → s.timer = .running k → s.prev ≠ 0x14 →
      (n < k → countCycles n s = { s with timer := .running (k - n) }) ∧
      (k ≤ n → countCycles n s = { s with t := true, timer := .idle }))

/-- R75, R23 (decisions D18, D19): PREV and SKIP after every step. -/
def Obligations.PrevNamesTheExecutedInstruction : Prop :=
  ∀ s t : State, step s = .next t →
    (acceptInterrupt (boundary s) = true → t.prev = 0x00 ∧ t.skip = false) ∧
    (acceptInterrupt (boundary s) = false → (boundary s).skip = true → t.prev = 0x00 ∧ t.skip = false) ∧
    (acceptInterrupt (boundary s) = false → (boundary s).skip = false →
      progByte (boundary s) (boundary s).pc = some t.prev)

/-! ### Invariants and whole-machine rules -/

/-- R22, R25, R74, R75, R196, R242, 10_state.md section 1: every step keeps the invariant. The canonical
form of memory is the model's choice (log 5), and that the widths are 4 and 11 is R3's (log 2). -/
def Obligations.EveryStepKeepsTheInvariant : Prop :=
  ∀ s t : State, s.Inv → step s = .next t → t.Inv

/-- The reset state meets the invariant (R29, R3; that no cell is listed is the model's choice, logs 1
and 5). -/
def Obligations.ResetMeetsTheInvariant : Prop := State.reset.Inv

/-- R42, R28: no step writes program memory or a parameter. -/
def Obligations.NoStepWritesProgramMemory : Prop :=
  ∀ s t : State, step s = .next t → t.rom = s.rom ∧ t.cfg = s.cfg

/-- R74: the list of the instructions that can set SKIP (those of R74, `Instr.canSkip`). -/
def Obligations.OnlyListedInstructionsSkip : Prop :=
  ∀ (i : Instr) (s t : State), exec i s = .next t → s.skip = false → t.skip = true → i.canSkip = true

/-- R16, R120 (decision D12): the writers of C. -/
def Obligations.OnlyListedInstructionsWriteCarry : Prop :=
  ∀ (i : Instr) (s t : State), exec i s = .next t → t.c ≠ s.c →
    i.alwaysWritesC = true ∨ (i.policyWritesC = true ∧ s.cfg.carryPolicy = .table)

/-- R11, R12, R17 to R20 (decisions D1 to D3, D13, D14): the writers of every register and status bit but
C, pc and SKIP, which have statements of their own (the "written by" column of R11). -/
def Obligations.RegistersHaveTheirOwnWriters : Prop :=
  ∀ (i : Instr) (s t : State), exec i s = .next t →
    (t.acc ≠ s.acc → i.writesAcc = true) ∧ (t.dph ≠ s.dph → i.writesDph = true) ∧
    (t.dpl ≠ s.dpl → i.writesDpl = true) ∧
    (t.z ≠ s.z → i = .taz ∨ i = .xaz) ∧ (t.w ≠ s.w → i = .taw ∨ i = .xaw) ∧
    (t.x ≠ s.x → i = .thx ∨ i = .xhx) ∧ (t.y ≠ s.y → i = .tly ∨ i = .xly) ∧
    (t.r ≠ s.r → i = .xhr) ∧ (t.s ≠ s.s → i = .xls) ∧
    (t.cs ≠ s.cs → i = .xc) ∧
    (t.t ≠ s.t ∨ t.timer ≠ s.timer → ∃ pfx n, i = .stm pfx n) ∧
    (t.ie ≠ s.ie → i = .di ∨ i = .ei) ∧ (t.intf ≠ s.intf → i = .tit) ∧
    (t.flag ≠ s.flag → ∃ b, i = .sfb b ∨ i = .rfb b) ∧
    t.prev = s.prev ∧ t.rom = s.rom ∧ t.cfg = s.cfg ∧ t.resets = s.resets ∧ t.events = s.events

/-- R43, R44: every store goes to the cell at DP as it stands at the start, and few instructions store. -/
def Obligations.StoresGoToTheCellAtDp : Prop :=
  ∀ (i : Instr) (s t : State), exec i s = .next t →
    (∀ a : Byte, a ≠ dp s → cell t a = cell s a) ∧ (i.storesRam = false → t.ram = s.ram)

/-- R27, R47, R48 (decision D24): the history grows by exactly the writes of the instruction's form, in
order, also where the latch held the value already; the latch of a port is the last value recorded for it,
and every other latch is unchanged. Only port reads take an input value (the queue is the model's, log 9). -/
def Obligations.PortsChangeByPortInstructionsOnly : Prop :=
  ∀ (i : Instr) (s t : State), exec i s = .next t →
    t.out = s.out ++ portWrites i s ∧
    (∀ p, latch t p = lastWritten (portWrites i s) p (latch s p)) ∧
    (i.writesPort = false → t.out = s.out ∧ t.po = s.po) ∧
    (i.readsPort = false → t.inputs = s.inputs ∧ t.draws = s.draws)

/-- R15, R22, R186: who writes pc and who uses the stack. -/
def Obligations.OnlyTransfersWritePcAndStack : Prop :=
  ∀ (i : Instr) (s t : State), exec i s = .next t →
    (t.pc ≠ s.pc → i.writesPc = true) ∧
    (t.stack ≠ s.stack → i.usesStack = true ∧ (t.stack = s.pc :: s.stack ∨ s.stack = t.pc :: t.stack))

/-- R120: "The skip conditions never depend on the policy." -/
def Obligations.SkipDoesNotDependOnCarryPolicy : Prop :=
  ∀ (i : Instr) (s : State) (p : CarryPolicy) (t u : State),
    exec i s = .next t → exec i { s with cfg := { s.cfg with carryPolicy := p } } = .next u →
      u.skip = t.skip ∧ u.acc = t.acc ∧ u.ram = t.ram ∧ u.pc = t.pc

/-- R11, R12, R17, R19, R24: a register named in few instructions influences no other. -/
def Obligations.SideRegistersInfluenceOnlyTheirInstructions : Prop :=
  ∀ (i : Instr) (s : State),
    (∀ v, i ≠ .xc → exec i { s with cs := v } = mapNext (fun t => { t with cs := v }) (exec i s)) ∧
    (∀ v, i ≠ .xhr → exec i { s with r := v } = mapNext (fun t => { t with r := v }) (exec i s)) ∧
    (∀ v, i ≠ .xls → exec i { s with s := v } = mapNext (fun t => { t with s := v }) (exec i s)) ∧
    (∀ v, i ≠ .taz → i ≠ .xaz → exec i { s with z := v } = mapNext (fun t => { t with z := v }) (exec i s)) ∧
    (∀ v, i ≠ .taw → i ≠ .xaw → exec i { s with w := v } = mapNext (fun t => { t with w := v }) (exec i s)) ∧
    (∀ v, i ≠ .thx → i ≠ .xhx → exec i { s with x := v } = mapNext (fun t => { t with x := v }) (exec i s)) ∧
    (∀ v, i ≠ .tly → i ≠ .xly → exec i { s with y := v } = mapNext (fun t => { t with y := v }) (exec i s)) ∧
    (∀ v, i ≠ .di → i ≠ .ei → exec i { s with ie := v } = mapNext (fun t => { t with ie := v }) (exec i s)) ∧
    (∀ v, (∀ n, i ≠ .li n) → exec i { s with prev := v } = mapNext (fun t => { t with prev := v }) (exec i s))

/-- R48: along every run the output history only grows. -/
def Obligations.OutputHistoryOnlyGrows : Prop :=
  ∀ (k : Nat) (s t : State), Host.Core.run Sys2Proof.core k s = .next t → ∃ l, t.out = s.out ++ l

/-- 60_exceptions.md, opening (launch premise that no request occurs): IF stays 0 along every run, and
none of its steps takes the interrupt. -/
def Obligations.NoRequestNoInterrupt : Prop :=
  ∀ (k : Nat) (s t : State), s.noRequests → s.intf = false →
    Host.Core.run Sys2Proof.core k s = .next t →
      t.intf = false ∧ acceptInterrupt (boundary t) = false

/-- R220 to R225, R231 (decisions D4, D15, D16, D32): a meaning faults only where a rule of its own
instruction raises: the two unassigned bytes; a wrong prefix; CAL and CZP on a full stack; RT and RTS on an
empty one; the instructions R26 lists at a DP outside RAM_MAP; a port instruction on the port its form
names, OCD's port D only after port C. -/
def Obligations.FaultsOnlyWhereRulesRaise : Prop :=
  ∀ (i : Instr) (s : State) (x : Fault), exec i s = .fault x →
    (∃ a, x = .illegalOpcode a ∧ ((i = .unassigned1C ∧ a = 0x1C) ∨ (i = .unassigned45 ∧ a = 0x45))) ∨
    (∃ a b, x = .reservedOperand a b ∧ i.wellFormed = false ∧ encode i = [a, b]
      ∧ s.cfg.reservedOperand = .fault) ∨
    (x = .stackOverflow s.pc ∧ s.cfg.stackDepth ≤ s.stack.length ∧
      ((∃ a, i = .cal a) ∨ (∃ n, i = .czp n))) ∨
    (x = .stackUnderflow ∧ s.stack = [] ∧ (i = .rt ∨ i = .rts)) ∨
    (x = .unmappedRam (dp s) ∧ ramMapped s.cfg (dp s) = false ∧ i.accessesRam = true) ∨
    (∃ p, x = .unmappedPort p ∧ portReadBy i s = some p ∧ s.cfg.portMap.readable.contains p = false) ∨
    (∃ p done v later, x = .unmappedPort p ∧ portWrites i s = done ++ (p, v) :: later ∧
      s.cfg.portMap.writable.contains p = false ∧
      ∀ w ∈ done, s.cfg.portMap.writable.contains w.1 = true)

/-- R43, R152 to R154, R164, R169, R173 (decisions D7, D9): with the adopted maps no data access faults,
and a port faults only where DPL names it. -/
def Obligations.AdoptedMapsConfineFaults : Prop :=
  ∀ (i : Instr) (s : State) (x : Fault), s.cfg = adoptedConfig → exec i s = .fault x →
    (∀ a, x ≠ .unmappedRam a) ∧
    (∀ p, x = .unmappedPort p → p = s.dpl ∧
      ((i = .op ∧ (p.toNat < 2 ∨ 8 < p.toNat)) ∨ ((i = .ip ∨ ∃ b, i = .tpb b) ∧ 3 < p.toNat)))

/-- R71: no step refuses an instruction; the model has a meaning for every row of the table. -/
def Obligations.NoStepRefuses : Prop := ∀ (s : State) (x : Refusal), step s ≠ .refused x

/-- R140 (decision D19), R230 (decision D6): after a step that executed an LI, a step that meets an LI
leaves ACC, whatever the environment does between the two. -/
def Obligations.OnlyTheFirstLiOfASequenceLoads : Prop :=
  ∀ (s t : State) (n m : BitVec 4),
    acceptInterrupt (boundary s) = false → (boundary s).skip = false →
    progByte (boundary s) (boundary s).pc = some (0x9#4 ++ n) → step s = .next t →
    progByte t t.pc = some (0x9#4 ++ m) →
      ∃ u, step t = .next u ∧ u.acc = t.acc ∧ u.pc = t.pc + 1 ∧ u.prev = 0x9#4 ++ m

/-- R250, R29, R251 (decisions D5, D33): every cell holds the draw of the new reset. The values of the
registers, flags and latches R29 leaves unspecified are the model's choice (logs 3, 4, 6, 16), and so is the
form of RAM's draw (log 5). -/
def Obligations.ResetPutsTheMachineInItsResetState : Prop :=
  ∀ s : State,
    (resetEvent s).pc = s.cfg.resetPc ∧ (resetEvent s).ie = false ∧ (resetEvent s).intf = false ∧
    (resetEvent s).skip = false ∧ (resetEvent s).prev = 0x00 ∧ (resetEvent s).timer = .idle ∧
    (resetEvent s).stack = [] ∧
    (∀ p : Nibble, 2 ≤ p.toNat → p.toNat ≤ 8 → latch (resetEvent s) p = 0) ∧
    (∀ a : Byte, cell (resetEvent s) a = Config.ramDraw (s.resets + 1) a) ∧
    (resetEvent s).rom = s.rom ∧ (resetEvent s).cfg = s.cfg ∧
    State.reset.pc = 0x000 ∧ resetEvent State.reset = { State.reset with resets := State.reset.resets + 1 }

/-! ### Basic operations -/

/-- R100, R170, R174 (decision D29 for SPB and RPB), R70: no effect at all. -/
def Obligations.NopSpbRpbChangeNothing : Prop :=
  ∀ (s : State) (b : BitVec 2),
    exec .nop s = .next s ∧ exec (.spb b) s = .next s ∧ exec (.rpb b) s = .next s

/-- R103, R104, with what RTS leaves for the next step: no interrupt comes between, and one whole
instruction at the return address is passed over. The stack and its underflow are R22's and R223's, by
decision D4; that a pending skip keeps the interrupt out is R230's, by decision D6 and general knowledge
K4; passing over a whole instruction is R74's, by decision D18. All are followed by log 17. -/
def Obligations.ReturnsPopTheStack : Prop :=
  encode .rt = [0x48] ∧ encode .rts = [0x49] ∧
  (∀ (u : State) (f : Fetched), u.skip = true →
    acceptInterrupt (boundary u) = false ∧
    (fetch (boundary u) = .ok f → ∃ w, step u = .next w ∧ w.skip = false ∧
      w.pc = u.pc + BitVec.ofNat 11 f.bytes.length)) ∧
  (∀ (s : State) (v : PAddr) (rest : List PAddr), s.stack = v :: rest →
    exec .rt s = .next { s with pc := v, stack := rest } ∧
    exec .rts s = .next { s with pc := v, stack := rest, skip := true }) ∧
  (∀ s : State, s.stack = [] → exec .rt s = .fault .stackUnderflow ∧ exec .rts s = .fault .stackUnderflow)

/-- R105 to R114. -/
def Obligations.TransfersCopyAndExchangesSwap : Prop :=
  (encode .tal = [0x07] ∧ encode .tla = [0x12] ∧ encode .taz = [0x42] ∧ encode .taw = [0x43] ∧
   encode .tly = [0x46] ∧ encode .thx = [0x47] ∧ encode .xaz = [0x4A] ∧ encode .xaw = [0x4B] ∧
   encode .xly = [0x4E] ∧ encode .xhx = [0x4F]) ∧
  ∀ s : State,
    exec .tal s = .next { s with dpl := s.acc } ∧ exec .tla s = .next { s with acc := s.dpl } ∧
    exec .taz s = .next { s with z := s.acc } ∧ exec .taw s = .next { s with w := s.acc } ∧
    exec .tly s = .next { s with y := s.dpl } ∧ exec .thx s = .next { s with x := s.dph } ∧
    exec .xaz s = .next { s with acc := s.z, z := s.acc } ∧
    exec .xaw s = .next { s with acc := s.w, w := s.acc } ∧
    exec .xly s = .next { s with dpl := s.y, y := s.dpl } ∧
    exec .xhx s = .next { s with dph := s.x, x := s.dph }

/-- 40_basic_operations.md section 3 ("Executing the same exchange twice restores both registers"), with
the reading of XLS and XHR that decision D3 makes. -/
def Obligations.ExchangingTwiceRestores : Prop :=
  (∀ s : State,
    exec .xls s = .next { s with dpl := s.s, s := s.dpl } ∧
    exec .xhr s = .next { s with dph := s.r, r := s.dph }) ∧
  ∀ (i : Instr) (s : State), i ∈ [Instr.xaz, .xaw, .xly, .xhx, .xls, .xhr] →
    ∃ t, exec i s = .next t ∧ exec i t = .next s

/-! ### Arithmetic and logic -/

/-- R121, R122, R123, R126, R127 with the carry clause of R120 (decisions D11, D12), for either policy. -/
def Obligations.PolicyArithmeticResults : Prop :=
  ∀ s : State,
    exec .inc s = .next { s with
      acc := BitVec.ofNat 4 (s.acc.toNat + 1), skip := decide (s.acc = 0xF)
      c := if s.cfg.carryPolicy = .table then decide (s.acc = 0xF) else s.c } ∧
    exec .dec s = .next { s with
      acc := BitVec.ofNat 4 (s.acc.toNat + 15), skip := decide (s.acc = 0x0)
      c := if s.cfg.carryPolicy = .table then decide (s.acc = 0x0) else s.c } ∧
    exec .daa s = .next { s with
      acc := BitVec.ofNat 4 (s.acc.toNat + 6)
      c := if s.cfg.carryPolicy = .table then decide (10 ≤ s.acc.toNat) else s.c } ∧
    exec .das s = .next { s with
      acc := BitVec.ofNat 4 (s.acc.toNat + 10)
      c := if s.cfg.carryPolicy = .table then decide (6 ≤ s.acc.toNat) else s.c } ∧
    (ramMapped s.cfg (dp s) = true → ∀ r, r = s.acc.toNat + (cell s (dp s)).toNat →
      exec .ad s = .next { s with
        acc := BitVec.ofNat 4 r, skip := decide (16 ≤ r)
        c := if s.cfg.carryPolicy = .table then decide (16 ≤ r) else s.c }) ∧
    (ramMapped s.cfg (dp s) = false → exec .ad s = .fault (.unmappedRam (dp s)))

/-- R124, R125: the additions with carry, under every policy. -/
def Obligations.AdsAndAdcAddWithCarry : Prop :=
  encode .ads = [0x09] ∧ encode .adc = [0x19] ∧
  ∀ s : State,
    (ramMapped s.cfg (dp s) = true → ∀ r, r = s.acc.toNat + (cell s (dp s)).toNat + s.c.toNat →
      exec .ads s = .next { s with acc := BitVec.ofNat 4 r, c := decide (16 ≤ r), skip := decide (16 ≤ r) } ∧
      exec .adc s = .next { s with acc := BitVec.ofNat 4 r, c := decide (16 ≤ r) }) ∧
    (ramMapped s.cfg (dp s) = false →
      exec .ads s = .fault (.unmappedRam (dp s)) ∧ exec .adc s = .fault (.unmappedRam (dp s)))

/-- R127, corner cases (decision D11; CARRY_POLICY = nec, decision D12): `DAA; ADS; DAS`, with DAS passed
over where ADS carries, adds two decimal digits and the decimal carry. -/
def Obligations.DecimalDigitAdditionIsCorrect : Prop :=
  ∀ (s : State) (n : Nat), s.cfg.carryPolicy = .nec → ramMapped s.cfg (dp s) = true →
    s.acc.toNat ≤ 9 → (cell s (dp s)).toNat ≤ 9 →
    n = s.acc.toNat + (cell s (dp s)).toNat + s.c.toNat →
      ∃ t u, exec .daa s = .next t ∧ exec .ads t = .next u ∧ u.c = decide (10 ≤ n) ∧ u.skip = u.c ∧
        (u.skip = true → u.acc.toNat = n - 10) ∧
        (u.skip = false → ∃ v, exec .das u = .next v ∧ v.acc.toNat = n ∧ v.c = false)

/-- R128, R129, R130. -/
def Obligations.LogicalOperationsOnAcc : Prop :=
  encode .cma = [0x10] ∧ encode .cia = [0x11] ∧ encode .exl = [0x18] ∧
  ∀ s : State,
    exec .cma s = .next { s with acc := BitVec.ofNat 4 (15 - s.acc.toNat) } ∧
    exec .cia s = .next { s with acc := BitVec.ofNat 4 (16 - s.acc.toNat) } ∧
    (ramMapped s.cfg (dp s) = true → exec .exl s = .next { s with acc := s.acc ^^^ cell s (dp s) }) ∧
    (ramMapped s.cfg (dp s) = false → exec .exl s = .fault (.unmappedRam (dp s)))

/-- R131: one place right through C, bit by bit; "five RARs restore `C:ACC`". -/
def Obligations.RarRotatesThroughCarry : Prop :=
  encode .rar = [0x30] ∧
  (∀ s : State, ∃ t, exec .rar s = .next t ∧ t.acc.getLsbD 3 = s.c ∧
    (∀ j < 3, t.acc.getLsbD j = s.acc.getLsbD (j + 1)) ∧ t.c = s.acc.getLsbD 0 ∧
    t = { s with acc := t.acc, c := t.c }) ∧
  (∀ s : State, ∃ s₁ s₂ s₃ s₄, exec .rar s = .next s₁ ∧ exec .rar s₁ = .next s₂ ∧
    exec .rar s₂ = .next s₃ ∧ exec .rar s₃ = .next s₄ ∧ exec .rar s₄ = .next s)

/-- R132, R163, R166: the tests of the cell at DP. -/
def Obligations.CellTestsSkipOnTheirCondition : Prop :=
  encode .cm = [0x0C] ∧ (∀ b : BitVec 2, encode (.tmb b) = [BitVec.ofNat 8 (0x58 + b.toNat)] ∧
    encode (.cmb b) = [BitVec.ofNat 8 (0x34 + b.toNat)]) ∧
  ∀ (s : State) (b : BitVec 2),
    (ramMapped s.cfg (dp s) = true → ∀ m, m = cell s (dp s) →
      exec .cm s = .next { s with skip := decide (s.acc = m) } ∧
      exec (.tmb b) s = .next { s with skip := m.getLsbD b.toNat } ∧
      exec (.cmb b) s = .next { s with skip := decide (s.acc.getLsbD b.toNat = m.getLsbD b.toNat) }) ∧
    (ramMapped s.cfg (dp s) = false →
      exec .cm s = .fault (.unmappedRam (dp s)) ∧ exec (.tmb b) s = .fault (.unmappedRam (dp s)) ∧
      exec (.cmb b) s = .fault (.unmappedRam (dp s)))

/-! ### Memory operations -/

/-- R140 (decision D19) and R142, whose nibble order the spec marks as derived from `DP = DPH:DPL`: LI
loads unless the previously executed instruction, whose first byte is `prev`, was an LI; LDI loads DP. That
an LI reached by a jump, call or return from an LI loads too is the model's choice (log 22). -/
def Obligations.ImmediateLoads : Prop :=
  ∀ s : State,
    (∀ n : BitVec 4,
      exec (.li n) s = .next { s with acc := if s.prev.toNat / 16 = 9 then s.acc else n }) ∧
    (∀ imm8 : BitVec 8, ∃ t, exec (.ldi imm8) s = .next t ∧ dp t = imm8 ∧
      t.dph.toNat = imm8.toNat / 16 ∧ t.dpl.toNat = imm8.toNat % 16 ∧
      t = { s with dph := t.dph, dpl := t.dpl })

/-- R141, R146, R147: DPL moves without carry into or borrow from DPH. -/
def Obligations.LdzIndDedMoveThePointer : Prop :=
  (∀ n : BitVec 4, encode (.ldz n) = [BitVec.ofNat 8 (0x80 + n.toNat)]) ∧ encode .ind = [0x33] ∧
  encode .ded = [0x13] ∧
  ∀ (n : BitVec 4) (s : State),
    exec (.ldz n) s = .next { s with dph := 0, dpl := n } ∧
    exec .ind s = .next { s with dpl := BitVec.ofNat 4 (s.dpl.toNat + 1), skip := decide (s.dpl = 0xF) } ∧
    exec .ded s = .next { s with dpl := BitVec.ofNat 4 (s.dpl.toNat + 15), skip := decide (s.dpl = 0x0) }

/-- R143, R144, R145: the stores to the cell at DP, with their frame. -/
def Obligations.StoreAndCountTheCellAtDp : Prop :=
  encode .s = [0x02] ∧ encode .inm = [0x1D] ∧ encode .dem = [0x1F] ∧
  ∀ s : State,
    (ramMapped s.cfg (dp s) = true →
      (∃ t, exec .s s = .next t ∧ cell t (dp s) = s.acc ∧
        (∀ a, a ≠ dp s → cell t a = cell s a) ∧ t = { s with ram := t.ram }) ∧
      (∃ t, exec .inm s = .next t ∧ (cell t (dp s)).toNat = ((cell s (dp s)).toNat + 1) % 16 ∧
        (∀ a, a ≠ dp s → cell t a = cell s a) ∧
        t = { s with ram := t.ram, skip := decide (cell t (dp s) = 0x0) }) ∧
      (∃ t, exec .dem s = .next t ∧ (cell t (dp s)).toNat = ((cell s (dp s)).toNat + 15) % 16 ∧
        (∀ a, a ≠ dp s → cell t a = cell s a) ∧
        t = { s with ram := t.ram, skip := decide (cell t (dp s) = 0xF) })) ∧
    (ramMapped s.cfg (dp s) = false →
      exec .s s = .fault (.unmappedRam (dp s)) ∧ exec .inm s = .fault (.unmappedRam (dp s)) ∧
      exec .dem s = .fault (.unmappedRam (dp s)))

/-! ### I/O operations -/

/-- R150, R153, R154, R48 (decisions D9, D10, D24): OP writes the port DPL names, OE port E, OCD port C
with the low nibble and then port D with the high one; each write is appended to the history. -/
def Obligations.OutputInstructionsWriteTheirPorts : Prop :=
  ∀ s : State,
    (s.cfg.portMap.writable.contains s.dpl = true →
      ∃ t, exec .op s = .next t ∧ t = { s with po := t.po, out := s.out ++ [(s.dpl, s.acc)] } ∧
        latch t s.dpl = s.acc ∧ ∀ q, q ≠ s.dpl → latch t q = latch s q) ∧
    (s.cfg.portMap.writable.contains s.dpl = false → exec .op s = .fault (.unmappedPort s.dpl)) ∧
    (∀ pe, pe = s.cfg.portMap.portE →
      (s.cfg.portMap.writable.contains pe = true →
        ∃ t, exec .oe s = .next t ∧ t = { s with po := t.po, out := s.out ++ [(pe, s.acc)] } ∧
          latch t pe = s.acc ∧ ∀ q, q ≠ pe → latch t q = latch s q) ∧
      (s.cfg.portMap.writable.contains pe = false → exec .oe s = .fault (.unmappedPort pe))) ∧
    (∀ (imm8 : BitVec 8) (pc pd lo hi : Nibble),
      pc = s.cfg.portMap.portC → pd = s.cfg.portMap.portD →
      lo = BitVec.ofNat 4 imm8.toNat → hi = BitVec.ofNat 4 (imm8.toNat / 16) →
      (s.cfg.portMap.writable.contains pc = true → s.cfg.portMap.writable.contains pd = true →
        ∃ t, exec (.ocd imm8) s = .next t ∧
          t = { s with po := t.po, out := s.out ++ [(pc, lo), (pd, hi)] } ∧
          latch t pd = hi ∧ (pc ≠ pd → latch t pc = lo) ∧
          ∀ q, q ≠ pc → q ≠ pd → latch t q = latch s q) ∧
      (s.cfg.portMap.writable.contains pc = false → exec (.ocd imm8) s = .fault (.unmappedPort pc)) ∧
      (s.cfg.portMap.writable.contains pc = true → s.cfg.portMap.writable.contains pd = false →
        exec (.ocd imm8) s = .fault (.unmappedPort pd)))

/-- R151, R152, R164, R165, R47 (decisions D9, D24): IP and TPB read the port DPL names, IA and TPA port
A; the value is the environment's, whatever it is. The queue of values and the free value behind it are
the model's (log 9). -/
def Obligations.PortReadsTakeTheEnvironmentsValue : Prop :=
  ∀ (s : State) (pa : Nibble) (b : BitVec 2), pa = s.cfg.portMap.portA →
    (∀ v rest, s.inputs = v :: rest →
      (s.cfg.portMap.readable.contains s.dpl = true →
        exec .ip s = .next { s with acc := v, inputs := rest } ∧
        exec (.tpb b) s = .next { s with skip := v.getLsbD b.toNat, inputs := rest }) ∧
      (s.cfg.portMap.readable.contains pa = true →
        exec .ia s = .next { s with acc := v, inputs := rest } ∧
        exec (.tpa b) s = .next { s with skip := v.getLsbD b.toNat, inputs := rest })) ∧
    (s.inputs = [] → ∃ v : Nibble,
      (s.cfg.portMap.readable.contains s.dpl = true →
        exec .ip s = .next { s with acc := v, draws := s.draws + 1 } ∧
        exec (.tpb b) s = .next { s with skip := v.getLsbD b.toNat, draws := s.draws + 1 }) ∧
      (s.cfg.portMap.readable.contains pa = true →
        exec .ia s = .next { s with acc := v, draws := s.draws + 1 } ∧
        exec (.tpa b) s = .next { s with skip := v.getLsbD b.toNat, draws := s.draws + 1 })) ∧
    (s.cfg.portMap.readable.contains s.dpl = false →
      exec .ip s = .fault (.unmappedPort s.dpl) ∧ exec (.tpb b) s = .fault (.unmappedPort s.dpl)) ∧
    (s.cfg.portMap.readable.contains pa = false →
      exec .ia s = .fault (.unmappedPort pa) ∧ exec (.tpa b) s = .fault (.unmappedPort pa))

/-! ### Bit manipulation -/

/-- R160, R161, R162, R167, R171: the bit tests of FLAG and ACC skip on their bit; SFB and RFB force one
bit of FLAG and leave the other three, and no other flag moves. -/
def Obligations.FlagBitsAreTestedSetAndReset : Prop :=
  ∀ b : BitVec 2,
    (encode (.fbf b) = [BitVec.ofNat 8 (0x20 + b.toNat)] ∧ encode (.fbt b) = [BitVec.ofNat 8 (0x5C + b.toNat)] ∧
     encode (.tab b) = [BitVec.ofNat 8 (0x24 + b.toNat)] ∧ encode (.sfb b) = [BitVec.ofNat 8 (0x7C + b.toNat)] ∧
     encode (.rfb b) = [BitVec.ofNat 8 (0x6C + b.toNat)]) ∧
    ∀ s : State,
      exec (.fbf b) s = .next { s with skip := decide (s.flag.toNat / 2 ^ b.toNat % 2 = 0) } ∧
      exec (.fbt b) s = .next { s with skip := decide (s.flag.toNat / 2 ^ b.toNat % 2 = 1) } ∧
      exec (.tab b) s = .next { s with skip := decide (s.acc.toNat / 2 ^ b.toNat % 2 = 1) } ∧
      (∃ f : Nibble, exec (.sfb b) s = .next { s with flag := f } ∧
        ∀ j < 4, f.getLsbD j = (decide (j = b.toNat) || s.flag.getLsbD j)) ∧
      (∃ f : Nibble, exec (.rfb b) s = .next { s with flag := f } ∧
        ∀ j < 4, f.getLsbD j = (!decide (j = b.toNat) && s.flag.getLsbD j))

/-- R168, R172: one bit of the cell at DP is forced; every other bit and every other cell stays. -/
def Obligations.SmbAndRmbForceOneCellBit : Prop :=
  ∀ b : BitVec 2,
    encode (.smb b) = [BitVec.ofNat 8 (0x78 + b.toNat)] ∧ encode (.rmb b) = [BitVec.ofNat 8 (0x68 + b.toNat)] ∧
    ∀ s : State,
      (ramMapped s.cfg (dp s) = true →
        (∃ t, exec (.smb b) s = .next t ∧ t = { s with ram := t.ram } ∧
          (∀ a, a ≠ dp s → cell t a = cell s a) ∧
          ∀ j < 4, (cell t (dp s)).getLsbD j = (decide (j = b.toNat) || (cell s (dp s)).getLsbD j)) ∧
        (∃ t, exec (.rmb b) s = .next t ∧ t = { s with ram := t.ram } ∧
          (∀ a, a ≠ dp s → cell t a = cell s a) ∧
          ∀ j < 4, (cell t (dp s)).getLsbD j = (!decide (j = b.toNat) && (cell s (dp s)).getLsbD j))) ∧
      (ramMapped s.cfg (dp s) = false →
        exec (.smb b) s = .fault (.unmappedRam (dp s)) ∧ exec (.rmb b) s = .fault (.unmappedRam (dp s)))

/-- R169, R173, R48 (decisions D9, D24): one bit of port E's latch is forced, and the whole latch is
written out. -/
def Obligations.SebAndRebForceOnePortEBit : Prop :=
  ∀ (b : BitVec 2) (s : State) (p : Nibble), p = s.cfg.portMap.portE →
    (s.cfg.portMap.writable.contains p = true →
      (∃ t, exec (.seb b) s = .next t ∧ t = { s with po := t.po, out := t.out } ∧
        t.out = s.out ++ [(p, latch t p)] ∧ (∀ q, q ≠ p → latch t q = latch s q) ∧
        ∀ j < 4, (latch t p).getLsbD j = (decide (j = b.toNat) || (latch s p).getLsbD j)) ∧
      (∃ t, exec (.reb b) s = .next t ∧ t = { s with po := t.po, out := t.out } ∧
        t.out = s.out ++ [(p, latch t p)] ∧ (∀ q, q ≠ p → latch t q = latch s q) ∧
        ∀ j < 4, (latch t p).getLsbD j = (!decide (j = b.toNat) && (latch s p).getLsbD j))) ∧
    (s.cfg.portMap.writable.contains p = false →
      exec (.seb b) s = .fault (.unmappedPort p) ∧ exec (.reb b) s = .fault (.unmappedPort p))

/-! ### Jumps and calls -/

/-- R181, R63. -/
def Obligations.JmpLoadsPc : Prop :=
  ∀ a : BitVec 11,
    encode (.jmp a) = [BitVec.ofNat 8 (0xA0 + a.toNat / 256), BitVec.ofNat 8 a.toNat] ∧
    ∀ s : State, exec (.jmp a) s = .next { s with pc := a }

/-- R182, R183 (decision D17: the page of the advanced pc): a jump within the 64-byte page. -/
def Obligations.PageJumpsStayInThePage : Prop :=
  ∀ (o : BitVec 6) (s : State),
    exec (.jcp o) s = .next { s with pc := BitVec.ofNat 11 (s.pc.toNat / 64 * 64 + o.toNat) } ∧
    exec .jpa s = .next { s with pc := BitVec.ofNat 11 (s.pc.toNat / 64 * 64 + 4 * s.acc.toNat) }

/-- R184, R185, R222 (decisions D4, D20): a call saves the advanced pc and jumps. -/
def Obligations.CallsPushTheAdvancedPc : Prop :=
  ∀ (a : BitVec 11) (n : BitVec 4) (s : State),
    (s.stack.length < s.cfg.stackDepth →
      exec (.cal a) s = .next { s with stack := s.pc :: s.stack, pc := a } ∧
      exec (.czp n) s = .next { s with stack := s.pc :: s.stack, pc := BitVec.ofNat 11 (4 * n.toNat) }) ∧
    (s.cfg.stackDepth ≤ s.stack.length →
      exec (.cal a) s = .fault (.stackOverflow s.pc) ∧ exec (.czp n) s = .fault (.stackOverflow s.pc))

/-- R186, R234, R232 (decisions D4, D6, D20): wherever the stack is again what a call or an interrupt
entry left, RT goes back to where it came from and leaves the stack as it was before. -/
def Obligations.ReturnUndoesCallAndInterruptEntry : Prop :=
  (∀ (i : Instr) (s t u : State), (∃ a, i = .cal a) ∨ (∃ n, i = .czp n) → exec i s = .next t →
    u.stack = t.stack → exec .rt u = .next { u with pc := s.pc, stack := s.stack }) ∧
  (∀ s t u : State, acceptInterrupt (boundary s) = true → step s = .next t → u.stack = t.stack →
    exec .rt u = .next { u with pc := (boundary s).pc, stack := (boundary s).stack })

/-! ### Control, status and immediate compares -/

/-- R101, R102, R190 to R193: IE is written by DI and EI, C by CLC, STC and XC, and TC tests C. No
interrupt is accepted at the boundary after a DI, nor after an EI, whose first byte is 0x31: the hold-off
after EI is R230's decision D6 and general knowledge K4 (log 17). -/
def Obligations.EnableAndCarryInstructions : Prop :=
  (∀ u : State, u.ie = false ∨ u.prev = 0x31 → acceptInterrupt (boundary u) = false) ∧
  (∀ s : State, ∃ t, exec .xc s = .next t ∧ exec .xc t = .next s) ∧
  encode .di = [0x01] ∧ encode .ei = [0x31] ∧
  encode .clc = [0x0B] ∧ encode .stc = [0x1B] ∧ encode .xc = [0x1A] ∧ encode .tc = [0x04] ∧
  ∀ s : State,
    exec .di s = .next { s with ie := false } ∧ exec .ei s = .next { s with ie := true } ∧
    exec .clc s = .next { s with c := false } ∧ exec .stc s = .next { s with c := true } ∧
    exec .xc s = .next { s with c := s.cs, cs := s.c } ∧ exec .tc s = .next { s with skip := s.c }

/-- R194, R195, R196 (decisions D13, D14, D16, D31): TTM leaves T, TIT clears IF, STM clears T and
starts the timer; a wrong prefix faults under RESERVED_OPERAND = fault only. -/
def Obligations.TimerAndInterruptFlagInstructions : Prop :=
  ∀ (s : State) (pfx : BitVec 2) (n : BitVec 6),
    exec .ttm s = .next { s with skip := s.t } ∧
    exec .tit s = .next { s with skip := s.intf, intf := false } ∧
    (pfx = 2 ∨ s.cfg.reservedOperand = .ignorePrefix →
      exec (.stm pfx n) s = .next { s with t := false, timer := .running ((n.toNat + 1) * 63) }) ∧
    (pfx ≠ 2 → s.cfg.reservedOperand = .fault →
      exec (.stm pfx n) s = .fault (.reservedOperand 0x14 (BitVec.ofNat 8 (pfx.toNat * 64 + n.toNat))))

/-- R200, R201 (decision D16 for a wrong prefix). -/
def Obligations.ImmediateComparesSkipOnEquality : Prop :=
  ∀ (s : State) (pfx n : BitVec 4),
    (pfx = 0xC ∨ s.cfg.reservedOperand = .ignorePrefix →
      exec (.ci pfx n) s = .next { s with skip := decide (s.acc = n) }) ∧
    (pfx = 0xE ∨ s.cfg.reservedOperand = .ignorePrefix →
      exec (.cli pfx n) s = .next { s with skip := decide (s.dpl = n) }) ∧
    (pfx ≠ 0xC → s.cfg.reservedOperand = .fault →
      exec (.ci pfx n) s = .fault (.reservedOperand 0x17 (BitVec.ofNat 8 (pfx.toNat * 16 + n.toNat)))) ∧
    (pfx ≠ 0xE → s.cfg.reservedOperand = .fault →
      exec (.cli pfx n) s = .fault (.reservedOperand 0x16 (BitVec.ofNat 8 (pfx.toNat * 16 + n.toNat))))

/-! ### Special instructions and the unassigned bytes -/

/-- R205 to R209 (decision D26): the access uses DP as it stands at the start; then DPH is XORed with x
in bits 1..0; then XMI and XMD step DPL and skip on its wrap. -/
def Obligations.ExchangesWithTheCellAtDp : Prop :=
  ∀ (x : BitVec 2) (s : State) (h m : Nibble), h = s.dph ^^^ BitVec.ofNat 4 x.toNat → m = cell s (dp s) →
    (ramMapped s.cfg (dp s) = true → exec (.lm x) s = .next { s with acc := m, dph := h }) ∧
    (ramMapped s.cfg (dp s) = true →
      (∃ t, exec (.xm x) s = .next t ∧ t = { s with acc := m, dph := h, ram := t.ram } ∧
        cell t (dp s) = s.acc ∧ ∀ a, a ≠ dp s → cell t a = cell s a) ∧
      (∃ t, exec (.xmi x) s = .next t ∧
        t = { s with
          acc := m, dph := h, ram := t.ram
          dpl := BitVec.ofNat 4 (s.dpl.toNat + 1), skip := decide (s.dpl = 0xF) } ∧
        cell t (dp s) = s.acc ∧ ∀ a, a ≠ dp s → cell t a = cell s a) ∧
      (∃ t, exec (.xmd x) s = .next t ∧
        t = { s with
          acc := m, dph := h, ram := t.ram
          dpl := BitVec.ofNat 4 (s.dpl.toNat + 15), skip := decide (s.dpl = 0x0) } ∧
        cell t (dp s) = s.acc ∧ ∀ a, a ≠ dp s → cell t a = cell s a)) ∧
    (ramMapped s.cfg (dp s) = false →
      exec (.lm x) s = .fault (.unmappedRam (dp s)) ∧ exec (.xm x) s = .fault (.unmappedRam (dp s)) ∧
      exec (.xmi x) s = .fault (.unmappedRam (dp s)) ∧ exec (.xmd x) s = .fault (.unmappedRam (dp s)))

/-- R206, corner cases (decision D26): "Two `XM 0` in a row restore ACC and the cell". -/
def Obligations.TwoPureExchangesRestore : Prop :=
  ∀ s : State, ramMapped s.cfg (dp s) = true →
    ∃ t u, exec (.xm 0) s = .next t ∧ exec (.xm 0) t = .next u ∧ u.acc = s.acc ∧
      (∀ a, cell u a = cell s a) ∧ u = { s with ram := u.ram }

/-- R68, R221 (decision D15): executing an unassigned first byte is the model fault IllegalOpcode. -/
def Obligations.UnassignedBytesFault : Prop :=
  decode [0x1C] = .ok (.unassigned1C, []) ∧ decode [0x45] = .ok (.unassigned45, []) ∧
  ∀ s : State, exec .unassigned1C s = .fault (.illegalOpcode 0x1C) ∧
    exec .unassigned45 s = .fault (.illegalOpcode 0x45)
end

