-- ==== Sys2Proof/Laws/State.lean ====
section
/-! SUPPORT. One lemma per field per named update of the state, so that no proof unfolds an update.
A plain record update `{ s with f := v }` needs none: simp reads its projections. -/

namespace Sys2Proof.Machine

/-! ### State.storeCell -/

@[simp] theorem State.storeCell_acc (st : State) (a : Byte) (v : Nibble) : (st.storeCell a v).acc = st.acc := rfl
@[simp] theorem State.storeCell_dph (st : State) (a : Byte) (v : Nibble) : (st.storeCell a v).dph = st.dph := rfl
@[simp] theorem State.storeCell_dpl (st : State) (a : Byte) (v : Nibble) : (st.storeCell a v).dpl = st.dpl := rfl
@[simp] theorem State.storeCell_z (st : State) (a : Byte) (v : Nibble) : (st.storeCell a v).z = st.z := rfl
@[simp] theorem State.storeCell_w (st : State) (a : Byte) (v : Nibble) : (st.storeCell a v).w = st.w := rfl
@[simp] theorem State.storeCell_x (st : State) (a : Byte) (v : Nibble) : (st.storeCell a v).x = st.x := rfl
@[simp] theorem State.storeCell_y (st : State) (a : Byte) (v : Nibble) : (st.storeCell a v).y = st.y := rfl
@[simp] theorem State.storeCell_flag (st : State) (a : Byte) (v : Nibble) : (st.storeCell a v).flag = st.flag := rfl
@[simp] theorem State.storeCell_r (st : State) (a : Byte) (v : Nibble) : (st.storeCell a v).r = st.r := rfl
@[simp] theorem State.storeCell_s (st : State) (a : Byte) (v : Nibble) : (st.storeCell a v).s = st.s := rfl
@[simp] theorem State.storeCell_pc (st : State) (a : Byte) (v : Nibble) : (st.storeCell a v).pc = st.pc := rfl
@[simp] theorem State.storeCell_c (st : State) (a : Byte) (v : Nibble) : (st.storeCell a v).c = st.c := rfl
@[simp] theorem State.storeCell_cs (st : State) (a : Byte) (v : Nibble) : (st.storeCell a v).cs = st.cs := rfl
@[simp] theorem State.storeCell_t (st : State) (a : Byte) (v : Nibble) : (st.storeCell a v).t = st.t := rfl
@[simp] theorem State.storeCell_ie (st : State) (a : Byte) (v : Nibble) : (st.storeCell a v).ie = st.ie := rfl
@[simp] theorem State.storeCell_intf (st : State) (a : Byte) (v : Nibble) : (st.storeCell a v).intf = st.intf := rfl
@[simp] theorem State.storeCell_stack (st : State) (a : Byte) (v : Nibble) : (st.storeCell a v).stack = st.stack := rfl
@[simp] theorem State.storeCell_skip (st : State) (a : Byte) (v : Nibble) : (st.storeCell a v).skip = st.skip := rfl
@[simp] theorem State.storeCell_prev (st : State) (a : Byte) (v : Nibble) : (st.storeCell a v).prev = st.prev := rfl
@[simp] theorem State.storeCell_timer (st : State) (a : Byte) (v : Nibble) : (st.storeCell a v).timer = st.timer := rfl
@[simp] theorem State.storeCell_ram (st : State) (a : Byte) (v : Nibble) : (st.storeCell a v).ram = Memory.write st.ram a.toNat v := rfl
@[simp] theorem State.storeCell_po (st : State) (a : Byte) (v : Nibble) : (st.storeCell a v).po = st.po := rfl
@[simp] theorem State.storeCell_rom (st : State) (a : Byte) (v : Nibble) : (st.storeCell a v).rom = st.rom := rfl
@[simp] theorem State.storeCell_cfg (st : State) (a : Byte) (v : Nibble) : (st.storeCell a v).cfg = st.cfg := rfl
@[simp] theorem State.storeCell_resets (st : State) (a : Byte) (v : Nibble) : (st.storeCell a v).resets = st.resets := rfl
@[simp] theorem State.storeCell_events (st : State) (a : Byte) (v : Nibble) : (st.storeCell a v).events = st.events := rfl
@[simp] theorem State.storeCell_inputs (st : State) (a : Byte) (v : Nibble) : (st.storeCell a v).inputs = st.inputs := rfl
@[simp] theorem State.storeCell_draws (st : State) (a : Byte) (v : Nibble) : (st.storeCell a v).draws = st.draws := rfl
@[simp] theorem State.storeCell_out (st : State) (a : Byte) (v : Nibble) : (st.storeCell a v).out = st.out := rfl

/-! ### State.drivePort -/

@[simp] theorem State.drivePort_acc (st : State) (p v : Nibble) : (st.drivePort p v).acc = st.acc := rfl
@[simp] theorem State.drivePort_dph (st : State) (p v : Nibble) : (st.drivePort p v).dph = st.dph := rfl
@[simp] theorem State.drivePort_dpl (st : State) (p v : Nibble) : (st.drivePort p v).dpl = st.dpl := rfl
@[simp] theorem State.drivePort_z (st : State) (p v : Nibble) : (st.drivePort p v).z = st.z := rfl
@[simp] theorem State.drivePort_w (st : State) (p v : Nibble) : (st.drivePort p v).w = st.w := rfl
@[simp] theorem State.drivePort_x (st : State) (p v : Nibble) : (st.drivePort p v).x = st.x := rfl
@[simp] theorem State.drivePort_y (st : State) (p v : Nibble) : (st.drivePort p v).y = st.y := rfl
@[simp] theorem State.drivePort_flag (st : State) (p v : Nibble) : (st.drivePort p v).flag = st.flag := rfl
@[simp] theorem State.drivePort_r (st : State) (p v : Nibble) : (st.drivePort p v).r = st.r := rfl
@[simp] theorem State.drivePort_s (st : State) (p v : Nibble) : (st.drivePort p v).s = st.s := rfl
@[simp] theorem State.drivePort_pc (st : State) (p v : Nibble) : (st.drivePort p v).pc = st.pc := rfl
@[simp] theorem State.drivePort_c (st : State) (p v : Nibble) : (st.drivePort p v).c = st.c := rfl
@[simp] theorem State.drivePort_cs (st : State) (p v : Nibble) : (st.drivePort p v).cs = st.cs := rfl
@[simp] theorem State.drivePort_t (st : State) (p v : Nibble) : (st.drivePort p v).t = st.t := rfl
@[simp] theorem State.drivePort_ie (st : State) (p v : Nibble) : (st.drivePort p v).ie = st.ie := rfl
@[simp] theorem State.drivePort_intf (st : State) (p v : Nibble) : (st.drivePort p v).intf = st.intf := rfl
@[simp] theorem State.drivePort_stack (st : State) (p v : Nibble) : (st.drivePort p v).stack = st.stack := rfl
@[simp] theorem State.drivePort_skip (st : State) (p v : Nibble) : (st.drivePort p v).skip = st.skip := rfl
@[simp] theorem State.drivePort_prev (st : State) (p v : Nibble) : (st.drivePort p v).prev = st.prev := rfl
@[simp] theorem State.drivePort_timer (st : State) (p v : Nibble) : (st.drivePort p v).timer = st.timer := rfl
@[simp] theorem State.drivePort_ram (st : State) (p v : Nibble) : (st.drivePort p v).ram = st.ram := rfl
@[simp] theorem State.drivePort_po (st : State) (p v : Nibble) : (st.drivePort p v).po = st.po.set p.toNat v p.isLt := rfl
@[simp] theorem State.drivePort_rom (st : State) (p v : Nibble) : (st.drivePort p v).rom = st.rom := rfl
@[simp] theorem State.drivePort_cfg (st : State) (p v : Nibble) : (st.drivePort p v).cfg = st.cfg := rfl
@[simp] theorem State.drivePort_resets (st : State) (p v : Nibble) : (st.drivePort p v).resets = st.resets := rfl
@[simp] theorem State.drivePort_events (st : State) (p v : Nibble) : (st.drivePort p v).events = st.events := rfl
@[simp] theorem State.drivePort_inputs (st : State) (p v : Nibble) : (st.drivePort p v).inputs = st.inputs := rfl
@[simp] theorem State.drivePort_draws (st : State) (p v : Nibble) : (st.drivePort p v).draws = st.draws := rfl
@[simp] theorem State.drivePort_out (st : State) (p v : Nibble) : (st.drivePort p v).out = st.out ++ [(p, v)] := rfl

/-! ### State.setDp -/

@[simp] theorem State.setDp_acc (st : State) (v : Byte) : (st.setDp v).acc = st.acc := rfl
@[simp] theorem State.setDp_dph (st : State) (v : Byte) : (st.setDp v).dph = highNibble v := rfl
@[simp] theorem State.setDp_dpl (st : State) (v : Byte) : (st.setDp v).dpl = lowNibble v := rfl
@[simp] theorem State.setDp_z (st : State) (v : Byte) : (st.setDp v).z = st.z := rfl
@[simp] theorem State.setDp_w (st : State) (v : Byte) : (st.setDp v).w = st.w := rfl
@[simp] theorem State.setDp_x (st : State) (v : Byte) : (st.setDp v).x = st.x := rfl
@[simp] theorem State.setDp_y (st : State) (v : Byte) : (st.setDp v).y = st.y := rfl
@[simp] theorem State.setDp_flag (st : State) (v : Byte) : (st.setDp v).flag = st.flag := rfl
@[simp] theorem State.setDp_r (st : State) (v : Byte) : (st.setDp v).r = st.r := rfl
@[simp] theorem State.setDp_s (st : State) (v : Byte) : (st.setDp v).s = st.s := rfl
@[simp] theorem State.setDp_pc (st : State) (v : Byte) : (st.setDp v).pc = st.pc := rfl
@[simp] theorem State.setDp_c (st : State) (v : Byte) : (st.setDp v).c = st.c := rfl
@[simp] theorem State.setDp_cs (st : State) (v : Byte) : (st.setDp v).cs = st.cs := rfl
@[simp] theorem State.setDp_t (st : State) (v : Byte) : (st.setDp v).t = st.t := rfl
@[simp] theorem State.setDp_ie (st : State) (v : Byte) : (st.setDp v).ie = st.ie := rfl
@[simp] theorem State.setDp_intf (st : State) (v : Byte) : (st.setDp v).intf = st.intf := rfl
@[simp] theorem State.setDp_stack (st : State) (v : Byte) : (st.setDp v).stack = st.stack := rfl
@[simp] theorem State.setDp_skip (st : State) (v : Byte) : (st.setDp v).skip = st.skip := rfl
@[simp] theorem State.setDp_prev (st : State) (v : Byte) : (st.setDp v).prev = st.prev := rfl
@[simp] theorem State.setDp_timer (st : State) (v : Byte) : (st.setDp v).timer = st.timer := rfl
@[simp] theorem State.setDp_ram (st : State) (v : Byte) : (st.setDp v).ram = st.ram := rfl
@[simp] theorem State.setDp_po (st : State) (v : Byte) : (st.setDp v).po = st.po := rfl
@[simp] theorem State.setDp_rom (st : State) (v : Byte) : (st.setDp v).rom = st.rom := rfl
@[simp] theorem State.setDp_cfg (st : State) (v : Byte) : (st.setDp v).cfg = st.cfg := rfl
@[simp] theorem State.setDp_resets (st : State) (v : Byte) : (st.setDp v).resets = st.resets := rfl
@[simp] theorem State.setDp_events (st : State) (v : Byte) : (st.setDp v).events = st.events := rfl
@[simp] theorem State.setDp_inputs (st : State) (v : Byte) : (st.setDp v).inputs = st.inputs := rfl
@[simp] theorem State.setDp_draws (st : State) (v : Byte) : (st.setDp v).draws = st.draws := rfl
@[simp] theorem State.setDp_out (st : State) (v : Byte) : (st.setDp v).out = st.out := rfl

/-! ### State.advanced -/

@[simp] theorem State.advanced_acc (st : State) (n : Nat) : (st.advanced n).acc = st.acc := rfl
@[simp] theorem State.advanced_dph (st : State) (n : Nat) : (st.advanced n).dph = st.dph := rfl
@[simp] theorem State.advanced_dpl (st : State) (n : Nat) : (st.advanced n).dpl = st.dpl := rfl
@[simp] theorem State.advanced_z (st : State) (n : Nat) : (st.advanced n).z = st.z := rfl
@[simp] theorem State.advanced_w (st : State) (n : Nat) : (st.advanced n).w = st.w := rfl
@[simp] theorem State.advanced_x (st : State) (n : Nat) : (st.advanced n).x = st.x := rfl
@[simp] theorem State.advanced_y (st : State) (n : Nat) : (st.advanced n).y = st.y := rfl
@[simp] theorem State.advanced_flag (st : State) (n : Nat) : (st.advanced n).flag = st.flag := rfl
@[simp] theorem State.advanced_r (st : State) (n : Nat) : (st.advanced n).r = st.r := rfl
@[simp] theorem State.advanced_s (st : State) (n : Nat) : (st.advanced n).s = st.s := rfl
@[simp] theorem State.advanced_pc (st : State) (n : Nat) : (st.advanced n).pc = st.pc + BitVec.ofNat 11 n := rfl
@[simp] theorem State.advanced_c (st : State) (n : Nat) : (st.advanced n).c = st.c := rfl
@[simp] theorem State.advanced_cs (st : State) (n : Nat) : (st.advanced n).cs = st.cs := rfl
@[simp] theorem State.advanced_t (st : State) (n : Nat) : (st.advanced n).t = st.t := rfl
@[simp] theorem State.advanced_ie (st : State) (n : Nat) : (st.advanced n).ie = st.ie := rfl
@[simp] theorem State.advanced_intf (st : State) (n : Nat) : (st.advanced n).intf = st.intf := rfl
@[simp] theorem State.advanced_stack (st : State) (n : Nat) : (st.advanced n).stack = st.stack := rfl
@[simp] theorem State.advanced_skip (st : State) (n : Nat) : (st.advanced n).skip = st.skip := rfl
@[simp] theorem State.advanced_prev (st : State) (n : Nat) : (st.advanced n).prev = st.prev := rfl
@[simp] theorem State.advanced_timer (st : State) (n : Nat) : (st.advanced n).timer = st.timer := rfl
@[simp] theorem State.advanced_ram (st : State) (n : Nat) : (st.advanced n).ram = st.ram := rfl
@[simp] theorem State.advanced_po (st : State) (n : Nat) : (st.advanced n).po = st.po := rfl
@[simp] theorem State.advanced_rom (st : State) (n : Nat) : (st.advanced n).rom = st.rom := rfl
@[simp] theorem State.advanced_cfg (st : State) (n : Nat) : (st.advanced n).cfg = st.cfg := rfl
@[simp] theorem State.advanced_resets (st : State) (n : Nat) : (st.advanced n).resets = st.resets := rfl
@[simp] theorem State.advanced_events (st : State) (n : Nat) : (st.advanced n).events = st.events := rfl
@[simp] theorem State.advanced_inputs (st : State) (n : Nat) : (st.advanced n).inputs = st.inputs := rfl
@[simp] theorem State.advanced_draws (st : State) (n : Nat) : (st.advanced n).draws = st.draws := rfl
@[simp] theorem State.advanced_out (st : State) (n : Nat) : (st.advanced n).out = st.out := rfl

/-! ### intRequest -/

@[simp] theorem intRequest_acc (st : State) : (intRequest st).acc = st.acc := rfl
@[simp] theorem intRequest_dph (st : State) : (intRequest st).dph = st.dph := rfl
@[simp] theorem intRequest_dpl (st : State) : (intRequest st).dpl = st.dpl := rfl
@[simp] theorem intRequest_z (st : State) : (intRequest st).z = st.z := rfl
@[simp] theorem intRequest_w (st : State) : (intRequest st).w = st.w := rfl
@[simp] theorem intRequest_x (st : State) : (intRequest st).x = st.x := rfl
@[simp] theorem intRequest_y (st : State) : (intRequest st).y = st.y := rfl
@[simp] theorem intRequest_flag (st : State) : (intRequest st).flag = st.flag := rfl
@[simp] theorem intRequest_r (st : State) : (intRequest st).r = st.r := rfl
@[simp] theorem intRequest_s (st : State) : (intRequest st).s = st.s := rfl
@[simp] theorem intRequest_pc (st : State) : (intRequest st).pc = st.pc := rfl
@[simp] theorem intRequest_c (st : State) : (intRequest st).c = st.c := rfl
@[simp] theorem intRequest_cs (st : State) : (intRequest st).cs = st.cs := rfl
@[simp] theorem intRequest_t (st : State) : (intRequest st).t = st.t := rfl
@[simp] theorem intRequest_ie (st : State) : (intRequest st).ie = st.ie := rfl
@[simp] theorem intRequest_intf (st : State) : (intRequest st).intf = true := rfl
@[simp] theorem intRequest_stack (st : State) : (intRequest st).stack = st.stack := rfl
@[simp] theorem intRequest_skip (st : State) : (intRequest st).skip = st.skip := rfl
@[simp] theorem intRequest_prev (st : State) : (intRequest st).prev = st.prev := rfl
@[simp] theorem intRequest_timer (st : State) : (intRequest st).timer = st.timer := rfl
@[simp] theorem intRequest_ram (st : State) : (intRequest st).ram = st.ram := rfl
@[simp] theorem intRequest_po (st : State) : (intRequest st).po = st.po := rfl
@[simp] theorem intRequest_rom (st : State) : (intRequest st).rom = st.rom := rfl
@[simp] theorem intRequest_cfg (st : State) : (intRequest st).cfg = st.cfg := rfl
@[simp] theorem intRequest_resets (st : State) : (intRequest st).resets = st.resets := rfl
@[simp] theorem intRequest_events (st : State) : (intRequest st).events = st.events := rfl
@[simp] theorem intRequest_inputs (st : State) : (intRequest st).inputs = st.inputs := rfl
@[simp] theorem intRequest_draws (st : State) : (intRequest st).draws = st.draws := rfl
@[simp] theorem intRequest_out (st : State) : (intRequest st).out = st.out := rfl

/-! ### State.drawn -/

@[simp] theorem State.drawn_acc (st : State) : (st.drawn).acc = st.acc := by unfold State.drawn; split <;> rfl
@[simp] theorem State.drawn_dph (st : State) : (st.drawn).dph = st.dph := by unfold State.drawn; split <;> rfl
@[simp] theorem State.drawn_dpl (st : State) : (st.drawn).dpl = st.dpl := by unfold State.drawn; split <;> rfl
@[simp] theorem State.drawn_z (st : State) : (st.drawn).z = st.z := by unfold State.drawn; split <;> rfl
@[simp] theorem State.drawn_w (st : State) : (st.drawn).w = st.w := by unfold State.drawn; split <;> rfl
@[simp] theorem State.drawn_x (st : State) : (st.drawn).x = st.x := by unfold State.drawn; split <;> rfl
@[simp] theorem State.drawn_y (st : State) : (st.drawn).y = st.y := by unfold State.drawn; split <;> rfl
@[simp] theorem State.drawn_flag (st : State) : (st.drawn).flag = st.flag := by unfold State.drawn; split <;> rfl
@[simp] theorem State.drawn_r (st : State) : (st.drawn).r = st.r := by unfold State.drawn; split <;> rfl
@[simp] theorem State.drawn_s (st : State) : (st.drawn).s = st.s := by unfold State.drawn; split <;> rfl
@[simp] theorem State.drawn_pc (st : State) : (st.drawn).pc = st.pc := by unfold State.drawn; split <;> rfl
@[simp] theorem State.drawn_c (st : State) : (st.drawn).c = st.c := by unfold State.drawn; split <;> rfl
@[simp] theorem State.drawn_cs (st : State) : (st.drawn).cs = st.cs := by unfold State.drawn; split <;> rfl
@[simp] theorem State.drawn_t (st : State) : (st.drawn).t = st.t := by unfold State.drawn; split <;> rfl
@[simp] theorem State.drawn_ie (st : State) : (st.drawn).ie = st.ie := by unfold State.drawn; split <;> rfl
@[simp] theorem State.drawn_intf (st : State) : (st.drawn).intf = st.intf := by unfold State.drawn; split <;> rfl
@[simp] theorem State.drawn_stack (st : State) : (st.drawn).stack = st.stack := by unfold State.drawn; split <;> rfl
@[simp] theorem State.drawn_skip (st : State) : (st.drawn).skip = st.skip := by unfold State.drawn; split <;> rfl
@[simp] theorem State.drawn_prev (st : State) : (st.drawn).prev = st.prev := by unfold State.drawn; split <;> rfl
@[simp] theorem State.drawn_timer (st : State) : (st.drawn).timer = st.timer := by unfold State.drawn; split <;> rfl
@[simp] theorem State.drawn_ram (st : State) : (st.drawn).ram = st.ram := by unfold State.drawn; split <;> rfl
@[simp] theorem State.drawn_po (st : State) : (st.drawn).po = st.po := by unfold State.drawn; split <;> rfl
@[simp] theorem State.drawn_rom (st : State) : (st.drawn).rom = st.rom := by unfold State.drawn; split <;> rfl
@[simp] theorem State.drawn_cfg (st : State) : (st.drawn).cfg = st.cfg := by unfold State.drawn; split <;> rfl
@[simp] theorem State.drawn_resets (st : State) : (st.drawn).resets = st.resets := by unfold State.drawn; split <;> rfl
@[simp] theorem State.drawn_events (st : State) : (st.drawn).events = st.events := by unfold State.drawn; split <;> rfl
@[simp] theorem State.drawn_inputs (st : State) : (st.drawn).inputs = st.inputs.tail := by
  unfold State.drawn; split <;> simp_all
@[simp] theorem State.drawn_out (st : State) : (st.drawn).out = st.out := by unfold State.drawn; split <;> rfl

/-! ### expireTimer -/

@[simp] theorem expireTimer_acc (st : State) : (expireTimer st).acc = st.acc := by unfold expireTimer; split <;> simp_all
@[simp] theorem expireTimer_dph (st : State) : (expireTimer st).dph = st.dph := by unfold expireTimer; split <;> simp_all
@[simp] theorem expireTimer_dpl (st : State) : (expireTimer st).dpl = st.dpl := by unfold expireTimer; split <;> simp_all
@[simp] theorem expireTimer_z (st : State) : (expireTimer st).z = st.z := by unfold expireTimer; split <;> simp_all
@[simp] theorem expireTimer_w (st : State) : (expireTimer st).w = st.w := by unfold expireTimer; split <;> simp_all
@[simp] theorem expireTimer_x (st : State) : (expireTimer st).x = st.x := by unfold expireTimer; split <;> simp_all
@[simp] theorem expireTimer_y (st : State) : (expireTimer st).y = st.y := by unfold expireTimer; split <;> simp_all
@[simp] theorem expireTimer_flag (st : State) : (expireTimer st).flag = st.flag := by unfold expireTimer; split <;> simp_all
@[simp] theorem expireTimer_r (st : State) : (expireTimer st).r = st.r := by unfold expireTimer; split <;> simp_all
@[simp] theorem expireTimer_s (st : State) : (expireTimer st).s = st.s := by unfold expireTimer; split <;> simp_all
@[simp] theorem expireTimer_pc (st : State) : (expireTimer st).pc = st.pc := by unfold expireTimer; split <;> simp_all
@[simp] theorem expireTimer_c (st : State) : (expireTimer st).c = st.c := by unfold expireTimer; split <;> simp_all
@[simp] theorem expireTimer_cs (st : State) : (expireTimer st).cs = st.cs := by unfold expireTimer; split <;> simp_all
@[simp] theorem expireTimer_ie (st : State) : (expireTimer st).ie = st.ie := by unfold expireTimer; split <;> simp_all
@[simp] theorem expireTimer_intf (st : State) : (expireTimer st).intf = st.intf := by unfold expireTimer; split <;> simp_all
@[simp] theorem expireTimer_stack (st : State) : (expireTimer st).stack = st.stack := by unfold expireTimer; split <;> simp_all
@[simp] theorem expireTimer_skip (st : State) : (expireTimer st).skip = st.skip := by unfold expireTimer; split <;> simp_all
@[simp] theorem expireTimer_prev (st : State) : (expireTimer st).prev = st.prev := by unfold expireTimer; split <;> simp_all
@[simp] theorem expireTimer_timer (st : State) : (expireTimer st).timer = Timer.idle := by unfold expireTimer; split <;> simp_all
@[simp] theorem expireTimer_ram (st : State) : (expireTimer st).ram = st.ram := by unfold expireTimer; split <;> simp_all
@[simp] theorem expireTimer_po (st : State) : (expireTimer st).po = st.po := by unfold expireTimer; split <;> simp_all
@[simp] theorem expireTimer_rom (st : State) : (expireTimer st).rom = st.rom := by unfold expireTimer; split <;> simp_all
@[simp] theorem expireTimer_cfg (st : State) : (expireTimer st).cfg = st.cfg := by unfold expireTimer; split <;> simp_all
@[simp] theorem expireTimer_resets (st : State) : (expireTimer st).resets = st.resets := by unfold expireTimer; split <;> simp_all
@[simp] theorem expireTimer_events (st : State) : (expireTimer st).events = st.events := by unfold expireTimer; split <;> simp_all
@[simp] theorem expireTimer_inputs (st : State) : (expireTimer st).inputs = st.inputs := by unfold expireTimer; split <;> simp_all
@[simp] theorem expireTimer_draws (st : State) : (expireTimer st).draws = st.draws := by unfold expireTimer; split <;> simp_all
@[simp] theorem expireTimer_out (st : State) : (expireTimer st).out = st.out := by unfold expireTimer; split <;> simp_all

/-! ### timerExpire -/

@[simp] theorem timerExpire_acc (st : State) : (timerExpire st).acc = st.acc := by unfold timerExpire; split <;> simp
@[simp] theorem timerExpire_dph (st : State) : (timerExpire st).dph = st.dph := by unfold timerExpire; split <;> simp
@[simp] theorem timerExpire_dpl (st : State) : (timerExpire st).dpl = st.dpl := by unfold timerExpire; split <;> simp
@[simp] theorem timerExpire_z (st : State) : (timerExpire st).z = st.z := by unfold timerExpire; split <;> simp
@[simp] theorem timerExpire_w (st : State) : (timerExpire st).w = st.w := by unfold timerExpire; split <;> simp
@[simp] theorem timerExpire_x (st : State) : (timerExpire st).x = st.x := by unfold timerExpire; split <;> simp
@[simp] theorem timerExpire_y (st : State) : (timerExpire st).y = st.y := by unfold timerExpire; split <;> simp
@[simp] theorem timerExpire_flag (st : State) : (timerExpire st).flag = st.flag := by unfold timerExpire; split <;> simp
@[simp] theorem timerExpire_r (st : State) : (timerExpire st).r = st.r := by unfold timerExpire; split <;> simp
@[simp] theorem timerExpire_s (st : State) : (timerExpire st).s = st.s := by unfold timerExpire; split <;> simp
@[simp] theorem timerExpire_pc (st : State) : (timerExpire st).pc = st.pc := by unfold timerExpire; split <;> simp
@[simp] theorem timerExpire_c (st : State) : (timerExpire st).c = st.c := by unfold timerExpire; split <;> simp
@[simp] theorem timerExpire_cs (st : State) : (timerExpire st).cs = st.cs := by unfold timerExpire; split <;> simp
@[simp] theorem timerExpire_ie (st : State) : (timerExpire st).ie = st.ie := by unfold timerExpire; split <;> simp
@[simp] theorem timerExpire_intf (st : State) : (timerExpire st).intf = st.intf := by unfold timerExpire; split <;> simp
@[simp] theorem timerExpire_stack (st : State) : (timerExpire st).stack = st.stack := by unfold timerExpire; split <;> simp
@[simp] theorem timerExpire_skip (st : State) : (timerExpire st).skip = st.skip := by unfold timerExpire; split <;> simp
@[simp] theorem timerExpire_prev (st : State) : (timerExpire st).prev = st.prev := by unfold timerExpire; split <;> simp
@[simp] theorem timerExpire_ram (st : State) : (timerExpire st).ram = st.ram := by unfold timerExpire; split <;> simp
@[simp] theorem timerExpire_po (st : State) : (timerExpire st).po = st.po := by unfold timerExpire; split <;> simp
@[simp] theorem timerExpire_rom (st : State) : (timerExpire st).rom = st.rom := by unfold timerExpire; split <;> simp
@[simp] theorem timerExpire_cfg (st : State) : (timerExpire st).cfg = st.cfg := by unfold timerExpire; split <;> simp
@[simp] theorem timerExpire_resets (st : State) : (timerExpire st).resets = st.resets := by unfold timerExpire; split <;> simp
@[simp] theorem timerExpire_events (st : State) : (timerExpire st).events = st.events := by unfold timerExpire; split <;> simp
@[simp] theorem timerExpire_inputs (st : State) : (timerExpire st).inputs = st.inputs := by unfold timerExpire; split <;> simp
@[simp] theorem timerExpire_draws (st : State) : (timerExpire st).draws = st.draws := by unfold timerExpire; split <;> simp
@[simp] theorem timerExpire_out (st : State) : (timerExpire st).out = st.out := by unfold timerExpire; split <;> simp

/-! ### tick -/

@[simp] theorem tick_acc (n : Nat) (st : State) : (tick n st).acc = st.acc := by unfold tick; split <;> (try split) <;> rfl
@[simp] theorem tick_dph (n : Nat) (st : State) : (tick n st).dph = st.dph := by unfold tick; split <;> (try split) <;> rfl
@[simp] theorem tick_dpl (n : Nat) (st : State) : (tick n st).dpl = st.dpl := by unfold tick; split <;> (try split) <;> rfl
@[simp] theorem tick_z (n : Nat) (st : State) : (tick n st).z = st.z := by unfold tick; split <;> (try split) <;> rfl
@[simp] theorem tick_w (n : Nat) (st : State) : (tick n st).w = st.w := by unfold tick; split <;> (try split) <;> rfl
@[simp] theorem tick_x (n : Nat) (st : State) : (tick n st).x = st.x := by unfold tick; split <;> (try split) <;> rfl
@[simp] theorem tick_y (n : Nat) (st : State) : (tick n st).y = st.y := by unfold tick; split <;> (try split) <;> rfl
@[simp] theorem tick_flag (n : Nat) (st : State) : (tick n st).flag = st.flag := by unfold tick; split <;> (try split) <;> rfl
@[simp] theorem tick_r (n : Nat) (st : State) : (tick n st).r = st.r := by unfold tick; split <;> (try split) <;> rfl
@[simp] theorem tick_s (n : Nat) (st : State) : (tick n st).s = st.s := by unfold tick; split <;> (try split) <;> rfl
@[simp] theorem tick_pc (n : Nat) (st : State) : (tick n st).pc = st.pc := by unfold tick; split <;> (try split) <;> rfl
@[simp] theorem tick_c (n : Nat) (st : State) : (tick n st).c = st.c := by unfold tick; split <;> (try split) <;> rfl
@[simp] theorem tick_cs (n : Nat) (st : State) : (tick n st).cs = st.cs := by unfold tick; split <;> (try split) <;> rfl
@[simp] theorem tick_ie (n : Nat) (st : State) : (tick n st).ie = st.ie := by unfold tick; split <;> (try split) <;> rfl
@[simp] theorem tick_intf (n : Nat) (st : State) : (tick n st).intf = st.intf := by unfold tick; split <;> (try split) <;> rfl
@[simp] theorem tick_stack (n : Nat) (st : State) : (tick n st).stack = st.stack := by unfold tick; split <;> (try split) <;> rfl
@[simp] theorem tick_skip (n : Nat) (st : State) : (tick n st).skip = st.skip := by unfold tick; split <;> (try split) <;> rfl
@[simp] theorem tick_prev (n : Nat) (st : State) : (tick n st).prev = st.prev := by unfold tick; split <;> (try split) <;> rfl
@[simp] theorem tick_ram (n : Nat) (st : State) : (tick n st).ram = st.ram := by unfold tick; split <;> (try split) <;> rfl
@[simp] theorem tick_po (n : Nat) (st : State) : (tick n st).po = st.po := by unfold tick; split <;> (try split) <;> rfl
@[simp] theorem tick_rom (n : Nat) (st : State) : (tick n st).rom = st.rom := by unfold tick; split <;> (try split) <;> rfl
@[simp] theorem tick_cfg (n : Nat) (st : State) : (tick n st).cfg = st.cfg := by unfold tick; split <;> (try split) <;> rfl
@[simp] theorem tick_resets (n : Nat) (st : State) : (tick n st).resets = st.resets := by unfold tick; split <;> (try split) <;> rfl
@[simp] theorem tick_events (n : Nat) (st : State) : (tick n st).events = st.events := by unfold tick; split <;> (try split) <;> rfl
@[simp] theorem tick_inputs (n : Nat) (st : State) : (tick n st).inputs = st.inputs := by unfold tick; split <;> (try split) <;> rfl
@[simp] theorem tick_draws (n : Nat) (st : State) : (tick n st).draws = st.draws := by unfold tick; split <;> (try split) <;> rfl
@[simp] theorem tick_out (n : Nat) (st : State) : (tick n st).out = st.out := by unfold tick; split <;> (try split) <;> rfl

/-! ### countCycles -/

@[simp] theorem countCycles_acc (n : Nat) (st : State) : (countCycles n st).acc = st.acc := by unfold countCycles; split <;> (try split) <;> simp
@[simp] theorem countCycles_dph (n : Nat) (st : State) : (countCycles n st).dph = st.dph := by unfold countCycles; split <;> (try split) <;> simp
@[simp] theorem countCycles_dpl (n : Nat) (st : State) : (countCycles n st).dpl = st.dpl := by unfold countCycles; split <;> (try split) <;> simp
@[simp] theorem countCycles_z (n : Nat) (st : State) : (countCycles n st).z = st.z := by unfold countCycles; split <;> (try split) <;> simp
@[simp] theorem countCycles_w (n : Nat) (st : State) : (countCycles n st).w = st.w := by unfold countCycles; split <;> (try split) <;> simp
@[simp] theorem countCycles_x (n : Nat) (st : State) : (countCycles n st).x = st.x := by unfold countCycles; split <;> (try split) <;> simp
@[simp] theorem countCycles_y (n : Nat) (st : State) : (countCycles n st).y = st.y := by unfold countCycles; split <;> (try split) <;> simp
@[simp] theorem countCycles_flag (n : Nat) (st : State) : (countCycles n st).flag = st.flag := by unfold countCycles; split <;> (try split) <;> simp
@[simp] theorem countCycles_r (n : Nat) (st : State) : (countCycles n st).r = st.r := by unfold countCycles; split <;> (try split) <;> simp
@[simp] theorem countCycles_s (n : Nat) (st : State) : (countCycles n st).s = st.s := by unfold countCycles; split <;> (try split) <;> simp
@[simp] theorem countCycles_pc (n : Nat) (st : State) : (countCycles n st).pc = st.pc := by unfold countCycles; split <;> (try split) <;> simp
@[simp] theorem countCycles_c (n : Nat) (st : State) : (countCycles n st).c = st.c := by unfold countCycles; split <;> (try split) <;> simp
@[simp] theorem countCycles_cs (n : Nat) (st : State) : (countCycles n st).cs = st.cs := by unfold countCycles; split <;> (try split) <;> simp
@[simp] theorem countCycles_ie (n : Nat) (st : State) : (countCycles n st).ie = st.ie := by unfold countCycles; split <;> (try split) <;> simp
@[simp] theorem countCycles_intf (n : Nat) (st : State) : (countCycles n st).intf = st.intf := by unfold countCycles; split <;> (try split) <;> simp
@[simp] theorem countCycles_stack (n : Nat) (st : State) : (countCycles n st).stack = st.stack := by unfold countCycles; split <;> (try split) <;> simp
@[simp] theorem countCycles_skip (n : Nat) (st : State) : (countCycles n st).skip = st.skip := by unfold countCycles; split <;> (try split) <;> simp
@[simp] theorem countCycles_prev (n : Nat) (st : State) : (countCycles n st).prev = st.prev := by unfold countCycles; split <;> (try split) <;> simp
@[simp] theorem countCycles_ram (n : Nat) (st : State) : (countCycles n st).ram = st.ram := by unfold countCycles; split <;> (try split) <;> simp
@[simp] theorem countCycles_po (n : Nat) (st : State) : (countCycles n st).po = st.po := by unfold countCycles; split <;> (try split) <;> simp
@[simp] theorem countCycles_rom (n : Nat) (st : State) : (countCycles n st).rom = st.rom := by unfold countCycles; split <;> (try split) <;> simp
@[simp] theorem countCycles_cfg (n : Nat) (st : State) : (countCycles n st).cfg = st.cfg := by unfold countCycles; split <;> (try split) <;> simp
@[simp] theorem countCycles_resets (n : Nat) (st : State) : (countCycles n st).resets = st.resets := by unfold countCycles; split <;> (try split) <;> simp
@[simp] theorem countCycles_events (n : Nat) (st : State) : (countCycles n st).events = st.events := by unfold countCycles; split <;> (try split) <;> simp
@[simp] theorem countCycles_inputs (n : Nat) (st : State) : (countCycles n st).inputs = st.inputs := by unfold countCycles; split <;> (try split) <;> simp
@[simp] theorem countCycles_draws (n : Nat) (st : State) : (countCycles n st).draws = st.draws := by unfold countCycles; split <;> (try split) <;> simp
@[simp] theorem countCycles_out (n : Nat) (st : State) : (countCycles n st).out = st.out := by unfold countCycles; split <;> (try split) <;> simp

/-! ### applyBoundary -/

@[simp] theorem applyBoundary_acc (b : Boundary) (st : State) : (applyBoundary b st).acc = st.acc := by unfold applyBoundary; split <;> split <;> simp_all
@[simp] theorem applyBoundary_dph (b : Boundary) (st : State) : (applyBoundary b st).dph = st.dph := by unfold applyBoundary; split <;> split <;> simp_all
@[simp] theorem applyBoundary_dpl (b : Boundary) (st : State) : (applyBoundary b st).dpl = st.dpl := by unfold applyBoundary; split <;> split <;> simp_all
@[simp] theorem applyBoundary_z (b : Boundary) (st : State) : (applyBoundary b st).z = st.z := by unfold applyBoundary; split <;> split <;> simp_all
@[simp] theorem applyBoundary_w (b : Boundary) (st : State) : (applyBoundary b st).w = st.w := by unfold applyBoundary; split <;> split <;> simp_all
@[simp] theorem applyBoundary_x (b : Boundary) (st : State) : (applyBoundary b st).x = st.x := by unfold applyBoundary; split <;> split <;> simp_all
@[simp] theorem applyBoundary_y (b : Boundary) (st : State) : (applyBoundary b st).y = st.y := by unfold applyBoundary; split <;> split <;> simp_all
@[simp] theorem applyBoundary_flag (b : Boundary) (st : State) : (applyBoundary b st).flag = st.flag := by unfold applyBoundary; split <;> split <;> simp_all
@[simp] theorem applyBoundary_r (b : Boundary) (st : State) : (applyBoundary b st).r = st.r := by unfold applyBoundary; split <;> split <;> simp_all
@[simp] theorem applyBoundary_s (b : Boundary) (st : State) : (applyBoundary b st).s = st.s := by unfold applyBoundary; split <;> split <;> simp_all
@[simp] theorem applyBoundary_pc (b : Boundary) (st : State) : (applyBoundary b st).pc = st.pc := by unfold applyBoundary; split <;> split <;> simp_all
@[simp] theorem applyBoundary_c (b : Boundary) (st : State) : (applyBoundary b st).c = st.c := by unfold applyBoundary; split <;> split <;> simp_all
@[simp] theorem applyBoundary_cs (b : Boundary) (st : State) : (applyBoundary b st).cs = st.cs := by unfold applyBoundary; split <;> split <;> simp_all
@[simp] theorem applyBoundary_ie (b : Boundary) (st : State) : (applyBoundary b st).ie = st.ie := by unfold applyBoundary; split <;> split <;> simp_all
@[simp] theorem applyBoundary_intf (b : Boundary) (st : State) : (applyBoundary b st).intf = (b.intRequest || st.intf) := by unfold applyBoundary; split <;> split <;> simp_all
@[simp] theorem applyBoundary_stack (b : Boundary) (st : State) : (applyBoundary b st).stack = st.stack := by unfold applyBoundary; split <;> split <;> simp_all
@[simp] theorem applyBoundary_skip (b : Boundary) (st : State) : (applyBoundary b st).skip = st.skip := by unfold applyBoundary; split <;> split <;> simp_all
@[simp] theorem applyBoundary_prev (b : Boundary) (st : State) : (applyBoundary b st).prev = st.prev := by unfold applyBoundary; split <;> split <;> simp_all
@[simp] theorem applyBoundary_ram (b : Boundary) (st : State) : (applyBoundary b st).ram = st.ram := by unfold applyBoundary; split <;> split <;> simp_all
@[simp] theorem applyBoundary_po (b : Boundary) (st : State) : (applyBoundary b st).po = st.po := by unfold applyBoundary; split <;> split <;> simp_all
@[simp] theorem applyBoundary_rom (b : Boundary) (st : State) : (applyBoundary b st).rom = st.rom := by unfold applyBoundary; split <;> split <;> simp_all
@[simp] theorem applyBoundary_cfg (b : Boundary) (st : State) : (applyBoundary b st).cfg = st.cfg := by unfold applyBoundary; split <;> split <;> simp_all
@[simp] theorem applyBoundary_resets (b : Boundary) (st : State) : (applyBoundary b st).resets = st.resets := by unfold applyBoundary; split <;> split <;> simp_all
@[simp] theorem applyBoundary_events (b : Boundary) (st : State) : (applyBoundary b st).events = st.events := by unfold applyBoundary; split <;> split <;> simp_all
@[simp] theorem applyBoundary_inputs (b : Boundary) (st : State) : (applyBoundary b st).inputs = st.inputs := by unfold applyBoundary; split <;> split <;> simp_all
@[simp] theorem applyBoundary_draws (b : Boundary) (st : State) : (applyBoundary b st).draws = st.draws := by unfold applyBoundary; split <;> split <;> simp_all
@[simp] theorem applyBoundary_out (b : Boundary) (st : State) : (applyBoundary b st).out = st.out := by unfold applyBoundary; split <;> split <;> simp_all

/-! ### boundary -/

@[simp] theorem boundary_acc (st : State) : (boundary st).acc = st.acc := by unfold boundary; split <;> simp_all
@[simp] theorem boundary_dph (st : State) : (boundary st).dph = st.dph := by unfold boundary; split <;> simp_all
@[simp] theorem boundary_dpl (st : State) : (boundary st).dpl = st.dpl := by unfold boundary; split <;> simp_all
@[simp] theorem boundary_z (st : State) : (boundary st).z = st.z := by unfold boundary; split <;> simp_all
@[simp] theorem boundary_w (st : State) : (boundary st).w = st.w := by unfold boundary; split <;> simp_all
@[simp] theorem boundary_x (st : State) : (boundary st).x = st.x := by unfold boundary; split <;> simp_all
@[simp] theorem boundary_y (st : State) : (boundary st).y = st.y := by unfold boundary; split <;> simp_all
@[simp] theorem boundary_flag (st : State) : (boundary st).flag = st.flag := by unfold boundary; split <;> simp_all
@[simp] theorem boundary_r (st : State) : (boundary st).r = st.r := by unfold boundary; split <;> simp_all
@[simp] theorem boundary_s (st : State) : (boundary st).s = st.s := by unfold boundary; split <;> simp_all
@[simp] theorem boundary_pc (st : State) : (boundary st).pc = st.pc := by unfold boundary; split <;> simp_all
@[simp] theorem boundary_c (st : State) : (boundary st).c = st.c := by unfold boundary; split <;> simp_all
@[simp] theorem boundary_cs (st : State) : (boundary st).cs = st.cs := by unfold boundary; split <;> simp_all
@[simp] theorem boundary_ie (st : State) : (boundary st).ie = st.ie := by unfold boundary; split <;> simp_all
@[simp] theorem boundary_stack (st : State) : (boundary st).stack = st.stack := by unfold boundary; split <;> simp_all
@[simp] theorem boundary_skip (st : State) : (boundary st).skip = st.skip := by unfold boundary; split <;> simp_all
@[simp] theorem boundary_prev (st : State) : (boundary st).prev = st.prev := by unfold boundary; split <;> simp_all
@[simp] theorem boundary_ram (st : State) : (boundary st).ram = st.ram := by unfold boundary; split <;> simp_all
@[simp] theorem boundary_po (st : State) : (boundary st).po = st.po := by unfold boundary; split <;> simp_all
@[simp] theorem boundary_rom (st : State) : (boundary st).rom = st.rom := by unfold boundary; split <;> simp_all
@[simp] theorem boundary_cfg (st : State) : (boundary st).cfg = st.cfg := by unfold boundary; split <;> simp_all
@[simp] theorem boundary_resets (st : State) : (boundary st).resets = st.resets := by unfold boundary; split <;> simp_all
@[simp] theorem boundary_events (st : State) : (boundary st).events = st.events.tail := by unfold boundary; split <;> simp_all
@[simp] theorem boundary_inputs (st : State) : (boundary st).inputs = st.inputs := by unfold boundary; split <;> simp_all
@[simp] theorem boundary_draws (st : State) : (boundary st).draws = st.draws := by unfold boundary; split <;> simp_all
@[simp] theorem boundary_out (st : State) : (boundary st).out = st.out := by unfold boundary; split <;> simp_all

/-! ### passOver -/

@[simp] theorem passOver_acc (f : Fetched) (st : State) : (passOver f st).acc = st.acc := by simp [passOver]
@[simp] theorem passOver_dph (f : Fetched) (st : State) : (passOver f st).dph = st.dph := by simp [passOver]
@[simp] theorem passOver_dpl (f : Fetched) (st : State) : (passOver f st).dpl = st.dpl := by simp [passOver]
@[simp] theorem passOver_z (f : Fetched) (st : State) : (passOver f st).z = st.z := by simp [passOver]
@[simp] theorem passOver_w (f : Fetched) (st : State) : (passOver f st).w = st.w := by simp [passOver]
@[simp] theorem passOver_x (f : Fetched) (st : State) : (passOver f st).x = st.x := by simp [passOver]
@[simp] theorem passOver_y (f : Fetched) (st : State) : (passOver f st).y = st.y := by simp [passOver]
@[simp] theorem passOver_flag (f : Fetched) (st : State) : (passOver f st).flag = st.flag := by simp [passOver]
@[simp] theorem passOver_r (f : Fetched) (st : State) : (passOver f st).r = st.r := by simp [passOver]
@[simp] theorem passOver_s (f : Fetched) (st : State) : (passOver f st).s = st.s := by simp [passOver]
@[simp] theorem passOver_pc (f : Fetched) (st : State) : (passOver f st).pc = st.pc + BitVec.ofNat 11 f.bytes.length := by simp [passOver]
@[simp] theorem passOver_c (f : Fetched) (st : State) : (passOver f st).c = st.c := by simp [passOver]
@[simp] theorem passOver_cs (f : Fetched) (st : State) : (passOver f st).cs = st.cs := by simp [passOver]
@[simp] theorem passOver_ie (f : Fetched) (st : State) : (passOver f st).ie = st.ie := by simp [passOver]
@[simp] theorem passOver_intf (f : Fetched) (st : State) : (passOver f st).intf = st.intf := by simp [passOver]
@[simp] theorem passOver_stack (f : Fetched) (st : State) : (passOver f st).stack = st.stack := by simp [passOver]
@[simp] theorem passOver_skip (f : Fetched) (st : State) : (passOver f st).skip = false := by simp [passOver]
@[simp] theorem passOver_prev (f : Fetched) (st : State) : (passOver f st).prev = 0x00 := by simp [passOver]
@[simp] theorem passOver_ram (f : Fetched) (st : State) : (passOver f st).ram = st.ram := by simp [passOver]
@[simp] theorem passOver_po (f : Fetched) (st : State) : (passOver f st).po = st.po := by simp [passOver]
@[simp] theorem passOver_rom (f : Fetched) (st : State) : (passOver f st).rom = st.rom := by simp [passOver]
@[simp] theorem passOver_cfg (f : Fetched) (st : State) : (passOver f st).cfg = st.cfg := by simp [passOver]
@[simp] theorem passOver_resets (f : Fetched) (st : State) : (passOver f st).resets = st.resets := by simp [passOver]
@[simp] theorem passOver_events (f : Fetched) (st : State) : (passOver f st).events = st.events := by simp [passOver]
@[simp] theorem passOver_inputs (f : Fetched) (st : State) : (passOver f st).inputs = st.inputs := by simp [passOver]
@[simp] theorem passOver_draws (f : Fetched) (st : State) : (passOver f st).draws = st.draws := by simp [passOver]
@[simp] theorem passOver_out (f : Fetched) (st : State) : (passOver f st).out = st.out := by simp [passOver]

/-! ### retire -/

@[simp] theorem retire_acc (f : Fetched) (st : State) : (retire f st).acc = st.acc := by simp [retire]
@[simp] theorem retire_dph (f : Fetched) (st : State) : (retire f st).dph = st.dph := by simp [retire]
@[simp] theorem retire_dpl (f : Fetched) (st : State) : (retire f st).dpl = st.dpl := by simp [retire]
@[simp] theorem retire_z (f : Fetched) (st : State) : (retire f st).z = st.z := by simp [retire]
@[simp] theorem retire_w (f : Fetched) (st : State) : (retire f st).w = st.w := by simp [retire]
@[simp] theorem retire_x (f : Fetched) (st : State) : (retire f st).x = st.x := by simp [retire]
@[simp] theorem retire_y (f : Fetched) (st : State) : (retire f st).y = st.y := by simp [retire]
@[simp] theorem retire_flag (f : Fetched) (st : State) : (retire f st).flag = st.flag := by simp [retire]
@[simp] theorem retire_r (f : Fetched) (st : State) : (retire f st).r = st.r := by simp [retire]
@[simp] theorem retire_s (f : Fetched) (st : State) : (retire f st).s = st.s := by simp [retire]
@[simp] theorem retire_pc (f : Fetched) (st : State) : (retire f st).pc = st.pc := by simp [retire]
@[simp] theorem retire_c (f : Fetched) (st : State) : (retire f st).c = st.c := by simp [retire]
@[simp] theorem retire_cs (f : Fetched) (st : State) : (retire f st).cs = st.cs := by simp [retire]
@[simp] theorem retire_ie (f : Fetched) (st : State) : (retire f st).ie = st.ie := by simp [retire]
@[simp] theorem retire_intf (f : Fetched) (st : State) : (retire f st).intf = st.intf := by simp [retire]
@[simp] theorem retire_stack (f : Fetched) (st : State) : (retire f st).stack = st.stack := by simp [retire]
@[simp] theorem retire_skip (f : Fetched) (st : State) : (retire f st).skip = st.skip := by simp [retire]
@[simp] theorem retire_prev (f : Fetched) (st : State) : (retire f st).prev = f.first := by simp [retire]
@[simp] theorem retire_ram (f : Fetched) (st : State) : (retire f st).ram = st.ram := by simp [retire]
@[simp] theorem retire_po (f : Fetched) (st : State) : (retire f st).po = st.po := by simp [retire]
@[simp] theorem retire_rom (f : Fetched) (st : State) : (retire f st).rom = st.rom := by simp [retire]
@[simp] theorem retire_cfg (f : Fetched) (st : State) : (retire f st).cfg = st.cfg := by simp [retire]
@[simp] theorem retire_resets (f : Fetched) (st : State) : (retire f st).resets = st.resets := by simp [retire]
@[simp] theorem retire_events (f : Fetched) (st : State) : (retire f st).events = st.events := by simp [retire]
@[simp] theorem retire_inputs (f : Fetched) (st : State) : (retire f st).inputs = st.inputs := by simp [retire]
@[simp] theorem retire_draws (f : Fetched) (st : State) : (retire f st).draws = st.draws := by simp [retire]
@[simp] theorem retire_out (f : Fetched) (st : State) : (retire f st).out = st.out := by simp [retire]

end Sys2Proof.Machine
end

