-- ==== Sys2Proof/Laws/Memory.lean ====
section
/-! SUPPORT. The memory laws: a read after a write, and the canonical form every write keeps. -/

namespace Sys2Proof.Machine

theorem Memory.wf_iff {w : Nat} (size : Nat) (m : Memory w) :
    Memory.wf size m = true ↔ m.Pairwise (fun p q => p.1 < q.1) ∧ ∀ p ∈ m, p.1 < size := by
  simp [Memory.wf, List.all_eq_true]

/-- The tail of a canonical memory is canonical, and the head lies below it. -/
theorem Memory.wf_cons {w : Nat} (size : Nat) (p : Nat × BitVec w) (m : Memory w) :
    Memory.wf size (p :: m) = true ↔
      (∀ q ∈ m, p.1 < q.1) ∧ p.1 < size ∧ Memory.wf size m = true := by
  simp only [Memory.wf_iff, List.pairwise_cons, List.mem_cons, forall_eq_or_imp]
  tauto

/-- Writing one address leaves what every other reads as, whatever the list. -/
theorem Memory.read_write_other {w : Nat} (m : Memory w) (a a' : Nat) (v : BitVec w) (h : a' ≠ a) :
    Memory.read (Memory.write m a v) a' = Memory.read m a' := by
  induction m with
  | nil => simp [Memory.write, Memory.read, h]
  | cons p m ih =>
    obtain ⟨b, u⟩ := p
    simp only [Memory.write]
    split
    · simp [Memory.read, h]
    · split
      · next _ hab => subst hab; simp [Memory.read, h]
      · simp [Memory.read, ih]

/-- A memory reads back what was written, whatever the list. -/
theorem Memory.read_write_same {w : Nat} (m : Memory w) (a : Nat) (v : BitVec w) :
    Memory.read (Memory.write m a v) a = some v := by
  induction m with
  | nil => simp [Memory.write, Memory.read]
  | cons p m ih =>
    obtain ⟨b, u⟩ := p
    simp only [Memory.write]
    split
    · simp [Memory.read]
    · split
      · simp [Memory.read]
      · next _ hne => simp [Memory.read, hne, ih]

theorem Memory.mem_write {w : Nat} (m : Memory w) (a : Nat) (v : BitVec w) (q : Nat × BitVec w)
    (hq : q ∈ Memory.write m a v) : q ∈ m ∨ q = (a, v) := by
  induction m with
  | nil => simpa [Memory.write] using hq
  | cons p m ih =>
    obtain ⟨b, u⟩ := p
    simp only [Memory.write] at hq
    split at hq
    · simp only [List.mem_cons] at hq ⊢; tauto
    · split at hq
      · simp only [List.mem_cons] at hq ⊢; tauto
      · rcases List.mem_cons.1 hq with rfl | hq
        · simp
        · rcases ih hq with h | h <;> simp [h]

/-- Every write keeps the canonical form. -/
theorem Memory.wf_write {w : Nat} (size : Nat) (m : Memory w) (a : Nat) (v : BitVec w) (ha : a < size)
    (h : Memory.wf size m = true) : Memory.wf size (Memory.write m a v) = true := by
  induction m with
  | nil => simp [Memory.write, Memory.wf, ha]
  | cons p m ih =>
    obtain ⟨b, u⟩ := p
    obtain ⟨hlt, hb, hm⟩ := (Memory.wf_cons size (b, u) m).1 h
    simp only [Memory.write]
    split
    · next hab =>
      refine (Memory.wf_cons size (a, v) _).2 ⟨fun q hq => ?_, ha, h⟩
      rcases List.mem_cons.1 hq with rfl | hq
      · exact hab
      · exact Nat.lt_trans hab (hlt q hq)
    · split
      · next _ hab => subst hab; exact (Memory.wf_cons size (a, v) _).2 ⟨hlt, ha, hm⟩
      · next hnlt hne =>
        refine (Memory.wf_cons size (b, u) _).2 ⟨fun q hq => ?_, hb, ih hm⟩
        rcases Memory.mem_write m a v q hq with hq | rfl
        · exact hlt q hq
        · show b < a
          omega

/-- A stored cell reads back. -/
theorem cell_storeCell_same (st : State) (a : Byte) (v : Nibble) : cell (st.storeCell a v) a = v := by
  simp [cell, Memory.read_write_same]

/-- Every other cell reads as before. -/
theorem cell_storeCell_other (st : State) (a b : Byte) (v : Nibble) (h : b ≠ a) :
    cell (st.storeCell a v) b = cell st b := by
  simp only [cell, State.storeCell_ram]
  rw [State.storeCell_resets, Memory.read_write_other _ _ _ _ (fun hab => h (BitVec.eq_of_toNat_eq hab))]

/-- A stored cell keeps RAM canonical. -/
theorem storeCell_ram_wf (st : State) (a : Byte) (v : Nibble)
    (h : Memory.wf 256 st.ram = true) : Memory.wf 256 (st.storeCell a v).ram = true :=
  Memory.wf_write _ _ _ _ a.isLt h

/-- Reading a cell looks at RAM and its draws only. -/
theorem cell_congr (s t : State) (a : Byte) (h : t.ram = s.ram) (hr : t.resets = s.resets) :
    cell t a = cell s a := by
  simp [cell, h, hr]

/-- Placing program bytes keeps program memory canonical. -/
theorem placeBytes_rom_wf (vs : List Byte) (a : PAddr) (st : State)
    (h : Memory.wf 2048 st.rom = true) : Memory.wf 2048 (placeBytes a vs st).rom = true := by
  induction vs generalizing a st with
  | nil => exact h
  | cons v vs ih => exact ih _ _ (Memory.wf_write _ _ _ _ a.isLt h)

/-- Both memories of the reset state are canonical. -/
theorem reset_memories_wf :
    Memory.wf 256 State.reset.ram = true ∧ Memory.wf 2048 State.reset.rom = true :=
  ⟨rfl, rfl⟩

/-- The latch just written reads as the value. -/
theorem latch_drivePort_same (st : State) (p v : Nibble) : latch (st.drivePort p v) p = v := by
  simp [latch]

/-- Every other latch reads as before. -/
theorem latch_drivePort_other (st : State) (p q v : Nibble) (h : q ≠ p) :
    latch (st.drivePort p v) q = latch st q := by
  have : p.toNat ≠ q.toNat := fun hpq => h (BitVec.eq_of_toNat_eq hpq.symm)
  simp [latch, Vector.getElem_set_ne, this]

end Sys2Proof.Machine
end

