-- ==== Sys2Proof/Laws/Ops.lean ====
section
/-! SUPPORT. One lemma per shared operation that says everything it can answer; the provers cite these
instead of unfolding the operations. -/

namespace Sys2Proof.Machine

/-! ### Results -/

theorem andThen_next {α : Type} {x : Except Fault α} {k : α → Result} {t : State} :
    andThen x k = .next t ↔ ∃ a, x = .ok a ∧ k a = .next t := by
  cases x <;> simp [andThen]

theorem andThen_fault {α : Type} {x : Except Fault α} {k : α → Result} {f : Fault} :
    andThen x k = .fault f ↔ x = .error f ∨ ∃ a, x = .ok a ∧ k a = .fault f := by
  cases x <;> simp [andThen]

theorem andThen_refused {α : Type} {x : Except Fault α} {k : α → Result} {r : Refusal} :
    andThen x k = .refused r ↔ ∃ a, x = .ok a ∧ k a = .refused r := by
  cases x <;> simp [andThen]

@[simp] theorem andThen_ok {α : Type} (a : α) (k : α → Result) : andThen (.ok a) k = k a := rfl

@[simp] theorem andThen_error {α : Type} (f : Fault) (k : α → Result) : andThen (.error f) k = .fault f := rfl

/-! ### Data memory -/

theorem memRead_ok {s : State} {a : Byte} {v : Nibble} :
    memRead s a = .ok v ↔ ramMapped s.cfg a = true ∧ v = cell s a := by
  by_cases h : ramMapped s.cfg a = true <;> simp [memRead, h, eq_comm]

theorem memRead_error {s : State} {a : Byte} {f : Fault} :
    memRead s a = .error f ↔ ramMapped s.cfg a = false ∧ f = .unmappedRam a := by
  by_cases h : ramMapped s.cfg a = true <;> simp [memRead, h, eq_comm]

theorem memWrite_ok {s t : State} {a : Byte} {v : Nibble} :
    memWrite s a v = .ok t ↔ ramMapped s.cfg a = true ∧ t = s.storeCell a v := by
  by_cases h : ramMapped s.cfg a = true <;> simp [memWrite, h, eq_comm]

theorem memWrite_error {s : State} {a : Byte} {v : Nibble} {f : Fault} :
    memWrite s a v = .error f ↔ ramMapped s.cfg a = false ∧ f = .unmappedRam a := by
  by_cases h : ramMapped s.cfg a = true <;> simp [memWrite, h, eq_comm]

theorem loadDp_ok {s : State} {v : Nibble} :
    loadDp s = .ok v ↔ ramMapped s.cfg (dp s) = true ∧ v = cell s (dp s) := memRead_ok

theorem loadDp_error {s : State} {f : Fault} :
    loadDp s = .error f ↔ ramMapped s.cfg (dp s) = false ∧ f = .unmappedRam (dp s) := memRead_error

theorem storeDp_ok {s t : State} {v : Nibble} :
    storeDp s v = .ok t ↔ ramMapped s.cfg (dp s) = true ∧ t = s.storeCell (dp s) v := memWrite_ok

theorem storeDp_error {s : State} {v : Nibble} {f : Fault} :
    storeDp s v = .error f ↔ ramMapped s.cfg (dp s) = false ∧ f = .unmappedRam (dp s) := memWrite_error

/-- The exchange of XM, XMI and XMD: where DP is mapped, ACC takes the cell, the cell takes ACC and DPH
is XORed; nothing else moves. -/
theorem exchangeCell_ok {x : BitVec 2} {s t : State} :
    exchangeCell x s = .ok t ↔ ramMapped s.cfg (dp s) = true ∧
      t = { s.storeCell (dp s) s.acc with acc := cell s (dp s), dph := xorHigh s.dph x } := by
  unfold exchangeCell loadDp storeDp memRead memWrite
  by_cases h : ramMapped s.cfg (dp s) = true <;> simp [h, eq_comm]

theorem exchangeCell_error {x : BitVec 2} {s : State} {f : Fault} :
    exchangeCell x s = .error f ↔ ramMapped s.cfg (dp s) = false ∧ f = .unmappedRam (dp s) := by
  unfold exchangeCell loadDp storeDp memRead memWrite
  by_cases h : ramMapped s.cfg (dp s) = true <;> simp [h, eq_comm]

/-! ### Ports -/

theorem portWrite_ok {s t : State} {p v : Nibble} :
    portWrite s p v = .ok t ↔ s.cfg.portMap.writable.contains p = true ∧ t = s.drivePort p v := by
  unfold portWrite; split <;> simp_all [eq_comm]

theorem portWrite_error {s : State} {p v : Nibble} {f : Fault} :
    portWrite s p v = .error f ↔ s.cfg.portMap.writable.contains p = false ∧ f = .unmappedPort p := by
  unfold portWrite; split <;> simp_all [eq_comm]

@[simp] theorem lastWritten_nil (p old : Nibble) : lastWritten [] p old = old := rfl

/-- Later writes are taken over what the earlier ones left. -/
theorem lastWritten_append (ws later : List (Nibble × Nibble)) (p old : Nibble) :
    lastWritten (ws ++ later) p old = lastWritten later p (lastWritten ws p old) := by
  simp only [lastWritten, List.reverse_append, List.lookup_append]
  cases later.reverse.lookup p <;> rfl

/-- What one port write does to every latch. -/
theorem latch_drivePort (s : State) (p v q : Nibble) :
    latch (s.drivePort p v) q = lastWritten [(p, v)] q (latch s q) := by
  by_cases h : q = p
  · subst h
    simp [latch_drivePort_same, lastWritten]
  · have hb : (q == p) = false := by simpa using h
    simp [latch_drivePort_other _ _ _ _ h, lastWritten, hb]

theorem portRead_ok {s : State} {p : Nibble} {vt : Nibble × State} :
    portRead s p = .ok vt ↔ s.cfg.portMap.readable.contains p = true ∧ vt = (draw s, s.drawn) := by
  unfold portRead; split <;> simp_all [eq_comm]

theorem portRead_error {s : State} {p : Nibble} {f : Fault} :
    portRead s p = .error f ↔ s.cfg.portMap.readable.contains p = false ∧ f = .unmappedPort p := by
  unfold portRead; split <;> simp_all [eq_comm]

/-! ### The stack -/

theorem push_ok {s t : State} {v : PAddr} :
    push s v = .ok t ↔ s.stack.length < s.cfg.stackDepth ∧ t = { s with stack := v :: s.stack } := by
  unfold push; split
  · next h => simp only [reduceCtorEq, false_iff]; omega
  · next h => simp only [Except.ok.injEq, eq_comm (b := t)]; simp; omega

theorem push_error {s : State} {v : PAddr} {f : Fault} :
    push s v = .error f ↔ s.cfg.stackDepth ≤ s.stack.length ∧ f = .stackOverflow v := by
  unfold push; split <;> simp_all [eq_comm]

theorem pop_ok {s : State} {vt : PAddr × State} :
    pop s = .ok vt ↔ ∃ v rest, s.stack = v :: rest ∧ vt = (v, { s with stack := rest }) := by
  unfold pop; split <;> simp_all [eq_comm]

theorem pop_error {s : State} {f : Fault} : pop s = .error f ↔ s.stack = [] ∧ f = .stackUnderflow := by
  unfold pop; split <;> simp_all [eq_comm]

theorem callTo_ok {s t : State} {target : PAddr} :
    callTo s target = .ok t ↔ s.stack.length < s.cfg.stackDepth ∧
      t = { s with stack := s.pc :: s.stack, pc := target } := by
  unfold callTo
  split
  · next u h => obtain ⟨hlt, rfl⟩ := push_ok.1 h; simp [hlt, eq_comm]
  · next f h => have := (push_error.1 h).1; simp only [reduceCtorEq, false_iff]; omega

theorem callTo_error {s : State} {target : PAddr} {f : Fault} :
    callTo s target = .error f ↔ s.cfg.stackDepth ≤ s.stack.length ∧ f = .stackOverflow s.pc := by
  unfold callTo
  split
  · next u h => have := (push_ok.1 h).1; simp only [reduceCtorEq, false_iff]; omega
  · next g h => obtain ⟨hle, rfl⟩ := push_error.1 h; simp [hle, eq_comm]

theorem returnFrom_ok {s t : State} :
    returnFrom s = .ok t ↔ ∃ v rest, s.stack = v :: rest ∧ t = { s with stack := rest, pc := v } := by
  unfold returnFrom pop; split <;> split at * <;> simp_all [eq_comm]

theorem returnFrom_error {s : State} {f : Fault} :
    returnFrom s = .error f ↔ s.stack = [] ∧ f = .stackUnderflow := by
  unfold returnFrom pop; split <;> split at * <;> simp_all [eq_comm]

/-! ### The prefixed second byte -/

theorem checkPrefix_ok {s : State} {good : Bool} {first second : Byte} {u : Unit} :
    checkPrefix s good first second = .ok u ↔
      s.cfg.reservedOperand = .ignorePrefix ∨ good = true := by
  unfold checkPrefix; split <;> (try split) <;> simp_all

theorem checkPrefix_error {s : State} {good : Bool} {first second : Byte} {f : Fault} :
    checkPrefix s good first second = .error f ↔
      s.cfg.reservedOperand = .fault ∧ good = false ∧ f = .reservedOperand first second := by
  cases h : s.cfg.reservedOperand <;> cases good <;> simp [checkPrefix, h, eq_comm]

/-! ### The interrupt -/

theorem acceptInterrupt_iff {s : State} :
    acceptInterrupt s = true ↔ s.ie = true ∧ s.intf = true ∧ s.skip = false ∧
      highNibble s.prev ≠ 0x9 ∧ s.prev ≠ 0x31 := by
  simp [acceptInterrupt, and_assoc]

theorem interruptEntry_ok {s t : State} :
    interruptEntry s = .ok t ↔ s.stack.length < s.cfg.stackDepth ∧
      t = { s with stack := s.pc :: s.stack, pc := s.cfg.intVector, intf := false, ie := false, prev := 0x00 } := by
  unfold interruptEntry
  split
  · next u h => obtain ⟨hlt, rfl⟩ := callTo_ok.1 h; simp [hlt, eq_comm]
  · next f h => have := (callTo_error.1 h).1; simp only [reduceCtorEq, false_iff]; omega

theorem interruptEntry_error {s : State} {f : Fault} :
    interruptEntry s = .error f ↔ s.cfg.stackDepth ≤ s.stack.length ∧ f = .stackOverflow s.pc := by
  unfold interruptEntry
  split
  · next u h => have := (callTo_ok.1 h).1; simp only [reduceCtorEq, false_iff]; omega
  · next g h => obtain ⟨hle, rfl⟩ := callTo_error.1 h; simp [hle, eq_comm]

/-! ### The timer -/

/-- What the passing of cycles, an expiry or a boundary can do to the timer and T. -/
def TimerMoves (s t : State) : Prop :=
  (t.timer = s.timer ∧ t.t = s.t) ∨
  (∃ k, s.timer = .running k ∧ t.timer = .idle ∧ t.t = true) ∨
  (∃ k n, s.timer = .running k ∧ n < k ∧ t.timer = .running (k - n) ∧ t.t = s.t)

theorem expireTimer_moves (s : State) : TimerMoves s (expireTimer s) := by
  unfold expireTimer TimerMoves; split <;> simp_all

theorem timerExpire_moves (s : State) : TimerMoves s (timerExpire s) := by
  unfold timerExpire; split
  · exact expireTimer_moves s
  · exact .inl ⟨rfl, rfl⟩

theorem tick_moves (n : Nat) (s : State) : TimerMoves s (tick n s) := by
  unfold tick TimerMoves
  split
  · simp
  · split
    · next k h hlt => exact .inr (.inr ⟨k, n, h, hlt, rfl, rfl⟩)
    · next k h _ => exact .inr (.inl ⟨k, h, rfl, rfl⟩)

theorem countCycles_moves (n : Nat) (s : State) : TimerMoves s (countCycles n s) := by
  unfold countCycles
  split
  · exact .inl ⟨rfl, rfl⟩
  · split
    · exact .inl ⟨rfl, rfl⟩
    · exact tick_moves n s

theorem boundary_moves (s : State) : TimerMoves s (boundary s) := by
  unfold boundary
  split
  · exact timerExpire_moves s
  · next b rest h =>
    unfold applyBoundary
    have key := timerExpire_moves { s with events := rest }
    cases b.timerExpire <;> cases b.intRequest
    · exact .inl ⟨rfl, rfl⟩
    · exact .inl ⟨rfl, rfl⟩
    · exact key
    · exact key

/-- IF after a boundary: it stays set, and only a request sets it. -/
theorem boundary_intf (s : State) :
    (boundary s).intf = (s.intf || (s.events.head?.map (·.intRequest)).getD false) := by
  unfold boundary
  split <;> simp_all [Bool.or_comm]

/-! ### Fetch -/

theorem progRead_ok {s : State} {a : PAddr} {v : Byte} : progRead s a = .ok v ↔ progByte s a = some v := by
  unfold progRead; split <;> simp_all

theorem progRead_error {s : State} {a : PAddr} {f : Fault} :
    progRead s a = .error f ↔ progByte s a = none ∧ f = .fetchUnprogrammed a := by
  cases h : progByte s a <;> simp [progRead, h, eq_comm]

/-- A fetch answers one byte, or two where the first asks for a second. -/
theorem fetch_ok {s : State} {f : Fetched} :
    fetch s = .ok f ↔ progByte s s.pc = some f.first ∧
      ((byteLength f.first ≠ 2 ∧ f.tail = []) ∨
       (byteLength f.first = 2 ∧ ∃ second, progByte s (s.pc + 1) = some second ∧ f.tail = [second])) := by
  obtain ⟨a, l⟩ := f
  unfold fetch progRead
  cases h : progByte s s.pc with
  | none => simp
  | some v =>
    by_cases h2 : byteLength v = 2
    · cases h' : progByte s (s.pc + 1) with
      | none =>
        simp only [h2, if_true]
        constructor
        · intro hh; simp at hh
        · rintro ⟨hva, hh⟩; simp at hva; subst hva; simp [h2] at hh
      | some u =>
        simp only [h2, if_true, Except.ok.injEq, Fetched.mk.injEq, Option.some.injEq]
        constructor
        · rintro ⟨rfl, rfl⟩; simp [h2]
        · rintro ⟨rfl, hh⟩; simp [h2] at hh; simp [hh]
    · simp only [h2, if_false, Except.ok.injEq, Fetched.mk.injEq, Option.some.injEq]
      constructor
      · rintro ⟨rfl, rfl⟩; simp [h2]
      · rintro ⟨rfl, hh⟩; simp [h2] at hh; simp [hh]

/-! ### The step -/

theorem retireResult_next {f : Fetched} {r : Result} {t : State} :
    retireResult f r = .next t ↔ ∃ u, r = .next u ∧ t = retire f u := by
  cases r <;> simp [retireResult, eq_comm]

/-- Everything a step that answers a next state can be: interrupt entry, an instruction passed over, or
an instruction executed. -/
theorem step_next_cases {s t : State} (h : step s = .next t) :
    (acceptInterrupt (boundary s) = true ∧
      ∃ u, interruptEntry (boundary s) = .ok u ∧ t = countCycles 1 u) ∨
    (acceptInterrupt (boundary s) = false ∧ (boundary s).skip = true ∧
      ∃ f, fetch (boundary s) = .ok f ∧ t = passOver f (boundary s)) ∨
    (acceptInterrupt (boundary s) = false ∧ (boundary s).skip = false ∧
      ∃ f i rest u, fetch (boundary s) = .ok f ∧ decode f.bytes = .ok (i, rest) ∧
        exec i ((boundary s).advanced f.bytes.length) = .next u ∧ t = retire f u) := by
  unfold step at h
  split at h
  · next hacc =>
    obtain ⟨u, hu, hk⟩ := andThen_next.1 h
    exact .inl ⟨hacc, u, hu, by simpa [eq_comm] using hk⟩
  · next hacc =>
    have hacc' : acceptInterrupt (boundary s) = false := by simpa using hacc
    unfold fetchAndExecute at h
    split at h
    · cases h
    · next f hf =>
      split at h
      · next hs => exact .inr (.inl ⟨hacc', hs, f, hf, by simpa [eq_comm] using h⟩)
      · next hs =>
        split at h
        · next i rest hd =>
          obtain ⟨u, hu, rfl⟩ := retireResult_next.1 h
          exact .inr (.inr ⟨hacc', by simpa using hs, f, i, rest, u, hf, hd, hu, rfl⟩)
        · cases h

end Sys2Proof.Machine
end

