-- ==== Sys2Proof/Laws/Operands.lean ====
section
/-! SUPPORT. One lemma per operand form and flag computation: what it is as arithmetic or bit by bit. -/

namespace Sys2Proof.Machine

/-! ### Concatenations and nibbles of a byte -/

/-- A concatenation (R4) as arithmetic. -/
theorem toNat_append_eq {n m : Nat} (a : BitVec n) (b : BitVec m) :
    (a ++ b).toNat = a.toNat * 2 ^ m + b.toNat := by
  rw [BitVec.toNat_append, ← Nat.shiftLeft_add_eq_or_of_lt b.isLt, Nat.shiftLeft_eq]

theorem highNibble_toNat (v : Byte) : (highNibble v).toNat = v.toNat / 16 := by
  have := v.isLt
  simp [highNibble, Nat.shiftRight_eq_div_pow]; omega

theorem lowNibble_toNat (v : Byte) : (lowNibble v).toNat = v.toNat % 16 := by
  simp [lowNibble]

/-- LI's test (R140) as arithmetic. -/
theorem highNibble_eq_nine (v : Byte) : highNibble v = 0x9 ↔ v.toNat / 16 = 9 := by
  rw [← BitVec.toNat_inj, highNibble_toNat]; rfl

/-- The two halves of a byte make the byte. -/
theorem dp_setDp (s : State) (v : Byte) : dp (s.setDp v) = v := by
  apply BitVec.eq_of_toNat_eq
  simp only [dp, State.setDp, toNat_append_eq, highNibble_toNat, lowNibble_toNat]
  omega

/-! ### Bits -/

theorem bitOf_eq (v : Nibble) (b : BitVec 2) : bitOf v b = decide (v.toNat / 2 ^ b.toNat % 2 = 1) := by
  revert v b; decide

theorem setBit_bit (v : Nibble) (b : BitVec 2) (j : Nat) (hj : j < 4) :
    (setBit v b).getLsbD j = (decide (j = b.toNat) || v.getLsbD j) := by
  revert v b j; decide

theorem clearBit_bit (v : Nibble) (b : BitVec 2) (j : Nat) (hj : j < 4) :
    (clearBit v b).getLsbD j = (!decide (j = b.toNat) && v.getLsbD j) := by
  revert v b j; decide

/-! ### Sums, counts and their wraps -/

theorem sumNibble_toNat (r : Nat) : (sumNibble r).toNat = r % 16 := by simp [sumNibble]

theorem incNibble_eq (v : Nibble) : incNibble v = BitVec.ofNat 4 (v.toNat + 1) := by revert v; decide

theorem decNibble_eq (v : Nibble) : decNibble v = BitVec.ofNat 4 (v.toNat + 15) := by revert v; decide

theorem wrapsUp_incNibble (v : Nibble) : wrapsUp (incNibble v) = decide (v = 0xF) := by revert v; decide

theorem wrapsDown_decNibble (v : Nibble) : wrapsDown (decNibble v) = decide (v = 0x0) := by revert v; decide

/-! ### Jump targets and the post-modification -/

theorem pageTarget_toNat (pc : PAddr) (o : BitVec 6) :
    (pageTarget pc o).toNat = pc.toNat / 64 * 64 + o.toNat := by
  have := pc.isLt
  simp only [pageTarget, toNat_append_eq, BitVec.extractLsb'_toNat, Nat.shiftRight_eq_div_pow]
  omega

theorem indexedTarget_toNat (pc : PAddr) (acc : Nibble) :
    (indexedTarget pc acc).toNat = pc.toNat / 64 * 64 + 4 * acc.toNat := by
  rw [indexedTarget, pageTarget_toNat]
  congr 1; revert acc; decide

theorem zeroPageTarget_toNat (n : BitVec 4) : (zeroPageTarget n).toNat = 4 * n.toNat := by
  revert n; decide

/-- XORing twice with the same operand gives DPH back. -/
theorem xorHigh_xorHigh (dph : Nibble) (x : BitVec 2) : xorHigh (xorHigh dph x) x = dph := by
  simp [xorHigh]

/-! ### Runs -/

theorem core_run_zero (s : State) : Host.Core.run Sys2Proof.core 0 s = .next s := rfl

/-- A run of one step more that answers a next state goes through a next state of `step`. -/
theorem core_run_succ {k : Nat} {s t : State} :
    Host.Core.run Sys2Proof.core (k + 1) s = .next t ↔
      ∃ u : State, step s = .next u ∧ Host.Core.run Sys2Proof.core k u = .next t := by
  constructor
  · intro h
    simp only [Host.Core.run] at h
    split at h
    · next u hu => exact ⟨u, hu, h⟩
    · cases h
    · cases h
  · rintro ⟨u, hu, h⟩
    have hu' : Sys2Proof.core.step s = .next u := hu
    simp only [Host.Core.run, hu']
    exact h

end Sys2Proof.Machine
end

