-- ==== Sys2Proof/Laws/PerInstr.lean ====
section
/-! SUPPORT. Statements about every instruction as syntax, one lemma per constructor. -/

namespace Sys2Proof.Laws.FirstByteLength

/-- The encoding of an instruction has as many bytes as its own first byte asks for (30_encoding.md R60). -/
def Statement (i : Instr) : Prop :=
  ∃ first tail, encode i = first :: tail ∧ (encode i).length = byteLength first

/-- A one-byte instruction whose first byte ends in an operand. -/
theorem of_operand {i : Instr} {first : Byte} (h : encode i = [first]) (h1 : byteLength first = 1) :
    Statement i :=
  ⟨first, [], h, by rw [h, h1]; rfl⟩

/-- A two-byte instruction. -/
theorem of_pair {i : Instr} {first second : Byte} (h : encode i = [first, second])
    (h2 : byteLength first = 2) : Statement i :=
  ⟨first, [second], h, by rw [h, h2]; rfl⟩

theorem length_operand2 (p : BitVec 6)
    (hp : p = 0b001000 ∨ p = 0b001001 ∨ p = 0b001010 ∨ p = 0b001011 ∨ p = 0b001101 ∨ p = 0b001110
      ∨ p = 0b001111 ∨ 0b010100 ≤ p ∧ p ≤ 0b011111) (b : BitVec 2) : byteLength (p ++ b) = 1 := by
  revert p b; decide +kernel

theorem length_operand4 (p : BitVec 4) (hp : p = 0x8 ∨ p = 0x9 ∨ p = 0xB) (n : BitVec 4) :
    byteLength (p ++ n) = 1 := by
  revert p n; decide +kernel

theorem length_operand6 (o : BitVec 6) : byteLength (0b11#2 ++ o) = 1 := by revert o; decide +kernel

theorem length_address (p : BitVec 5) (hp : p = 0b10100 ∨ p = 0b10101) (a : BitVec 3) :
    byteLength (p ++ a) = 2 := by
  revert p a; decide +kernel

theorem nop : Statement .nop := ⟨_, _, rfl, rfl⟩
theorem di : Statement .di := ⟨_, _, rfl, rfl⟩
theorem ei : Statement .ei := ⟨_, _, rfl, rfl⟩
theorem rt : Statement .rt := ⟨_, _, rfl, rfl⟩
theorem rts : Statement .rts := ⟨_, _, rfl, rfl⟩
theorem tal : Statement .tal := ⟨_, _, rfl, rfl⟩
theorem tla : Statement .tla := ⟨_, _, rfl, rfl⟩
theorem taz : Statement .taz := ⟨_, _, rfl, rfl⟩
theorem taw : Statement .taw := ⟨_, _, rfl, rfl⟩
theorem tly : Statement .tly := ⟨_, _, rfl, rfl⟩
theorem thx : Statement .thx := ⟨_, _, rfl, rfl⟩
theorem xaz : Statement .xaz := ⟨_, _, rfl, rfl⟩
theorem xaw : Statement .xaw := ⟨_, _, rfl, rfl⟩
theorem xly : Statement .xly := ⟨_, _, rfl, rfl⟩
theorem xhx : Statement .xhx := ⟨_, _, rfl, rfl⟩
theorem xls : Statement .xls := ⟨_, _, rfl, rfl⟩
theorem xhr : Statement .xhr := ⟨_, _, rfl, rfl⟩
theorem inc : Statement .inc := ⟨_, _, rfl, rfl⟩
theorem dec : Statement .dec := ⟨_, _, rfl, rfl⟩
theorem ad : Statement .ad := ⟨_, _, rfl, rfl⟩
theorem ads : Statement .ads := ⟨_, _, rfl, rfl⟩
theorem adc : Statement .adc := ⟨_, _, rfl, rfl⟩
theorem das : Statement .das := ⟨_, _, rfl, rfl⟩
theorem daa : Statement .daa := ⟨_, _, rfl, rfl⟩
theorem cma : Statement .cma := ⟨_, _, rfl, rfl⟩
theorem cia : Statement .cia := ⟨_, _, rfl, rfl⟩
theorem exl : Statement .exl := ⟨_, _, rfl, rfl⟩
theorem rar : Statement .rar := ⟨_, _, rfl, rfl⟩
theorem cm : Statement .cm := ⟨_, _, rfl, rfl⟩
theorem li (n : BitVec 4) : Statement (.li n) := of_operand rfl (length_operand4 _ (by decide) n)
theorem ldz (n : BitVec 4) : Statement (.ldz n) := of_operand rfl (length_operand4 _ (by decide) n)
theorem ldi (imm8 : BitVec 8) : Statement (.ldi imm8) := ⟨_, _, rfl, rfl⟩
theorem s : Statement .s := ⟨_, _, rfl, rfl⟩
theorem inm : Statement .inm := ⟨_, _, rfl, rfl⟩
theorem dem : Statement .dem := ⟨_, _, rfl, rfl⟩
theorem ind : Statement .ind := ⟨_, _, rfl, rfl⟩
theorem ded : Statement .ded := ⟨_, _, rfl, rfl⟩
theorem op : Statement .op := ⟨_, _, rfl, rfl⟩
theorem ip : Statement .ip := ⟨_, _, rfl, rfl⟩
theorem ia : Statement .ia := ⟨_, _, rfl, rfl⟩
theorem oe : Statement .oe := ⟨_, _, rfl, rfl⟩
theorem ocd (imm8 : BitVec 8) : Statement (.ocd imm8) := ⟨_, _, rfl, rfl⟩
theorem fbf (b : BitVec 2) : Statement (.fbf b) := of_operand rfl (length_operand2 _ (by decide) b)
theorem fbt (b : BitVec 2) : Statement (.fbt b) := of_operand rfl (length_operand2 _ (by decide) b)
theorem tab (b : BitVec 2) : Statement (.tab b) := of_operand rfl (length_operand2 _ (by decide) b)
theorem tmb (b : BitVec 2) : Statement (.tmb b) := of_operand rfl (length_operand2 _ (by decide) b)
theorem tpa (b : BitVec 2) : Statement (.tpa b) := of_operand rfl (length_operand2 _ (by decide) b)
theorem tpb (b : BitVec 2) : Statement (.tpb b) := of_operand rfl (length_operand2 _ (by decide) b)
theorem cmb (b : BitVec 2) : Statement (.cmb b) := of_operand rfl (length_operand2 _ (by decide) b)
theorem sfb (b : BitVec 2) : Statement (.sfb b) := of_operand rfl (length_operand2 _ (by decide) b)
theorem smb (b : BitVec 2) : Statement (.smb b) := of_operand rfl (length_operand2 _ (by decide) b)
theorem seb (b : BitVec 2) : Statement (.seb b) := of_operand rfl (length_operand2 _ (by decide) b)
theorem spb (b : BitVec 2) : Statement (.spb b) := of_operand rfl (length_operand2 _ (by decide) b)
theorem rfb (b : BitVec 2) : Statement (.rfb b) := of_operand rfl (length_operand2 _ (by decide) b)
theorem rmb (b : BitVec 2) : Statement (.rmb b) := of_operand rfl (length_operand2 _ (by decide) b)
theorem reb (b : BitVec 2) : Statement (.reb b) := of_operand rfl (length_operand2 _ (by decide) b)
theorem rpb (b : BitVec 2) : Statement (.rpb b) := of_operand rfl (length_operand2 _ (by decide) b)
theorem jmp (addr11 : BitVec 11) : Statement (.jmp addr11) := of_pair rfl (length_address _ (by decide) _)
theorem jcp (o : BitVec 6) : Statement (.jcp o) := of_operand rfl (length_operand6 o)
theorem jpa : Statement .jpa := ⟨_, _, rfl, rfl⟩
theorem cal (addr11 : BitVec 11) : Statement (.cal addr11) := of_pair rfl (length_address _ (by decide) _)
theorem czp (n : BitVec 4) : Statement (.czp n) := of_operand rfl (length_operand4 _ (by decide) n)
theorem clc : Statement .clc := ⟨_, _, rfl, rfl⟩
theorem stc : Statement .stc := ⟨_, _, rfl, rfl⟩
theorem xc : Statement .xc := ⟨_, _, rfl, rfl⟩
theorem tc : Statement .tc := ⟨_, _, rfl, rfl⟩
theorem ttm : Statement .ttm := ⟨_, _, rfl, rfl⟩
theorem tit : Statement .tit := ⟨_, _, rfl, rfl⟩
theorem stm (pfx : BitVec 2) (n : BitVec 6) : Statement (.stm pfx n) := ⟨_, _, rfl, rfl⟩
theorem ci (pfx : BitVec 4) (n : BitVec 4) : Statement (.ci pfx n) := ⟨_, _, rfl, rfl⟩
theorem cli (pfx : BitVec 4) (n : BitVec 4) : Statement (.cli pfx n) := ⟨_, _, rfl, rfl⟩
theorem xm (x : BitVec 2) : Statement (.xm x) := of_operand rfl (length_operand2 _ (by decide) x)
theorem xmi (x : BitVec 2) : Statement (.xmi x) := of_operand rfl (length_operand2 _ (by decide) x)
theorem xmd (x : BitVec 2) : Statement (.xmd x) := of_operand rfl (length_operand2 _ (by decide) x)
theorem lm (x : BitVec 2) : Statement (.lm x) := of_operand rfl (length_operand2 _ (by decide) x)
theorem unassigned1C : Statement .unassigned1C := ⟨_, _, rfl, rfl⟩
theorem unassigned45 : Statement .unassigned45 := ⟨_, _, rfl, rfl⟩

end Sys2Proof.Laws.FirstByteLength
end

