-- ==== Sys2Proof/Tests/Slice0.lean ====
section
/-! SUPPORT. Tests: the check of well-formedness, the decoding of words written out from the spec's
encodings, single steps with the results of 95_test_vectors.md, and for every statement with hypotheses
a concrete case that meets them. -/

namespace Sys2Proof.Tests

open Sys2Proof Sys2Proof.Machine

/-! ### Well-formedness: each check refuses an ill-formed term (R65, R68) -/

theorem test_ci_prefix_refused : (Instr.ci 0xE 5).wellFormed = false := by decide

theorem test_cli_prefix_refused : (Instr.cli 0xC 5).wellFormed = false := by decide

theorem test_stm_prefix_refused : (Instr.stm 3 9).wellFormed = false := by decide

theorem test_unassigned_refused :
    Instr.unassigned1C.wellFormed = false ∧ Instr.unassigned45.wellFormed = false := by decide

theorem test_prefixes_accepted :
    (Instr.ci 0xC 5).wellFormed = true ∧ (Instr.cli 0xE 5).wellFormed = true ∧
    (Instr.stm 2 9).wellFormed = true := by decide

/-! ### Decoding: words written out bit by bit from R61 to R66, one or more for each constructor -/

theorem test_decode_basic :
    decode [0b00000000] = .ok (.nop, []) ∧
    decode [0b00000001] = .ok (.di, []) ∧
    decode [0b00110001] = .ok (.ei, []) ∧
    decode [0b01001000] = .ok (.rt, []) ∧
    decode [0b01001001] = .ok (.rts, []) ∧
    decode [0b00000111] = .ok (.tal, []) ∧
    decode [0b00010010] = .ok (.tla, []) ∧
    decode [0b01000010] = .ok (.taz, []) ∧
    decode [0b01000011] = .ok (.taw, []) ∧
    decode [0b01000110] = .ok (.tly, []) ∧
    decode [0b01000111] = .ok (.thx, []) ∧
    decode [0b01001010] = .ok (.xaz, []) ∧
    decode [0b01001011] = .ok (.xaw, []) ∧
    decode [0b01001110] = .ok (.xly, []) ∧
    decode [0b01001111] = .ok (.xhx, []) ∧
    decode [0b01001100] = .ok (.xls, []) ∧
    decode [0b01001101] = .ok (.xhr, []) :=
  ⟨rfl, rfl, rfl, rfl, rfl, rfl, rfl, rfl, rfl, rfl, rfl, rfl, rfl, rfl, rfl, rfl, rfl⟩

theorem test_decode_arithmetic :
    decode [0b00001101] = .ok (.inc, []) ∧
    decode [0b00001111] = .ok (.dec, []) ∧
    decode [0b00001000] = .ok (.ad, []) ∧
    decode [0b00001001] = .ok (.ads, []) ∧
    decode [0b00011001] = .ok (.adc, []) ∧
    decode [0b00001010] = .ok (.das, []) ∧
    decode [0b00000110] = .ok (.daa, []) ∧
    decode [0b00010000] = .ok (.cma, []) ∧
    decode [0b00010001] = .ok (.cia, []) ∧
    decode [0b00011000] = .ok (.exl, []) ∧
    decode [0b00110000] = .ok (.rar, []) ∧
    decode [0b00001100] = .ok (.cm, []) :=
  ⟨rfl, rfl, rfl, rfl, rfl, rfl, rfl, rfl, rfl, rfl, rfl, rfl⟩

theorem test_decode_memory :
    decode [0b10010101] = .ok (.li 5, []) ∧
    decode [0b10001010] = .ok (.ldz 10, []) ∧
    decode [0b00010101, 0b10100111] = .ok (.ldi 0xA7, []) ∧
    decode [0b00000010] = .ok (.s, []) ∧
    decode [0b00011101] = .ok (.inm, []) ∧
    decode [0b00011111] = .ok (.dem, []) ∧
    decode [0b00110011] = .ok (.ind, []) ∧
    decode [0b00010011] = .ok (.ded, []) :=
  ⟨rfl, rfl, rfl, rfl, rfl, rfl, rfl, rfl⟩

theorem test_decode_io :
    decode [0b00001110] = .ok (.op, []) ∧
    decode [0b00110010] = .ok (.ip, []) ∧
    decode [0b01000000] = .ok (.ia, []) ∧
    decode [0b01000100] = .ok (.oe, []) ∧
    decode [0b00011110, 0b10100111] = .ok (.ocd 0xA7, []) :=
  ⟨rfl, rfl, rfl, rfl, rfl⟩

theorem test_decode_bit :
    decode [0b00100001] = .ok (.fbf 1, []) ∧
    decode [0b01011110] = .ok (.fbt 2, []) ∧
    decode [0b00100101] = .ok (.tab 1, []) ∧
    decode [0b01011010] = .ok (.tmb 2, []) ∧
    decode [0b01010101] = .ok (.tpa 1, []) ∧
    decode [0b01010010] = .ok (.tpb 2, []) ∧
    decode [0b00110101] = .ok (.cmb 1, []) ∧
    decode [0b01111110] = .ok (.sfb 2, []) ∧
    decode [0b01111001] = .ok (.smb 1, []) ∧
    decode [0b01110110] = .ok (.seb 2, []) ∧
    decode [0b01110001] = .ok (.spb 1, []) ∧
    decode [0b01101110] = .ok (.rfb 2, []) ∧
    decode [0b01101001] = .ok (.rmb 1, []) ∧
    decode [0b01100110] = .ok (.reb 2, []) ∧
    decode [0b01100001] = .ok (.rpb 1, []) :=
  ⟨rfl, rfl, rfl, rfl, rfl, rfl, rfl, rfl, rfl, rfl, rfl, rfl, rfl, rfl, rfl⟩

theorem test_decode_jump :
    decode [0b10100101, 0b00110010] = .ok (.jmp 0x532, []) ∧
    decode [0b11010011] = .ok (.jcp 19, []) ∧
    decode [0b01000001] = .ok (.jpa, []) ∧
    decode [0b10101101, 0b00110010] = .ok (.cal 0x532, []) ∧
    decode [0b10110101] = .ok (.czp 5, []) :=
  ⟨rfl, rfl, rfl, rfl, rfl⟩

theorem test_decode_status :
    decode [0b00001011] = .ok (.clc, []) ∧
    decode [0b00011011] = .ok (.stc, []) ∧
    decode [0b00011010] = .ok (.xc, []) ∧
    decode [0b00000100] = .ok (.tc, []) ∧
    decode [0b00000101] = .ok (.ttm, []) ∧
    decode [0b00000011] = .ok (.tit, []) ∧
    decode [0b00010100, 0b10010011] = .ok (.stm 0b10 19, []) :=
  ⟨rfl, rfl, rfl, rfl, rfl, rfl, rfl⟩

theorem test_decode_immediate :
    decode [0b00010111, 0b11000101] = .ok (.ci 0b1100 5, []) ∧
    decode [0b00010110, 0b11101010] = .ok (.cli 0b1110 10, []) :=
  ⟨rfl, rfl⟩

theorem test_decode_special :
    decode [0b00101001] = .ok (.xm 1, []) ∧
    decode [0b00111110] = .ok (.xmi 2, []) ∧
    decode [0b00101101] = .ok (.xmd 1, []) ∧
    decode [0b00111010] = .ok (.lm 2, []) :=
  ⟨rfl, rfl, rfl, rfl⟩

theorem test_decode_unassigned :
    decode [0b00011100] = .ok (.unassigned1C, []) ∧
    decode [0b01000101] = .ok (.unassigned45, []) :=
  ⟨rfl, rfl⟩

/-- A wrong prefix is decoded with its bits (R69), and a missing byte is an error with a name. -/
theorem test_decode_edges :
    decode [0b00010111, 0b00001010] = .ok (.ci 0b0000 10, []) ∧
    decode [0b00010100, 0b00111111] = .ok (.stm 0b00 63, []) ∧
    decode [0b00010110, 0b11001010] = .ok (.cli 0b1100 10, []) ∧
    decode [] = .error .noByte ∧ decode [0b10101111] = .error (.missingSecond 0xAF) ∧
    decode [0b11111111, 0x12] = .ok (.jcp 63, [0x12]) :=
  ⟨rfl, rfl, rfl, rfl, rfl, rfl⟩

/-- Words as the opcode table numbers them: the second byte in bits 15 to 8. -/
theorem test_table_words :
    decodeTableWord 8 0x0D = some .inc ∧ decodeTableWord 16 0xCA17 = some (.ci 0xC 10) ∧
    decodeTableWord 8 0x15 = some (.ldi 0) ∧ decodeTableWord 16 0x23A1 = some (.jmp 0x123) :=
  ⟨rfl, rfl, rfl, rfl⟩

/-! ### Single steps: each expected value is the one 95_test_vectors.md gives -/

/-- The state the vectors start from: all zero, `pc = 0x100`, nothing happens at the next boundary. -/
def start : State := { State.reset with pc := 0x100, events := [⟨false, false⟩] }

/-- CARRY_POLICY = nec. -/
def necConfig : Config := { adoptedConfig with carryPolicy := .nec }

/-- A part of the state after one step that runs these bytes at pc. -/
def nextAfter {α : Type} (bytes : List Byte) (s : State) (part : State → α) : Option α :=
  match step (placeBytes s.pc bytes s) with
  | .next t => some (part t)
  | _ => none

/-- The fault one step ends in that runs these bytes at pc. -/
def stopsAfter (bytes : List Byte) (s : State) : Option Fault :=
  match step (placeBytes s.pc bytes s) with
  | .fault x => some x
  | _ => none

/-! ### Basic operations (95_test_vectors.md V1 on) -/

theorem test_nop_V1 :
    nextAfter [0x00] ({ start with acc := 0x5, c := true }) (fun t => (t.acc, t.c, t.skip)) =
      some (0x5, true, false) := by decide

theorem test_di_V2 :
    nextAfter [0x01] ({ start with ie := true, intf := false }) (fun t => (t.ie, t.skip)) =
      some (false, false) := by decide

theorem test_ei_V3 :
    nextAfter [0x31] ({ start with ie := false, intf := true }) (fun t => (t.ie, t.skip)) =
      some (true, false) := by decide

theorem test_rt_V4 :
    nextAfter [0x48] ({ start with stack := [0x123, 0x456] }) (fun t => (t.skip, t.pc, t.stack)) =
      some (false, 0x123, [0x456]) := by decide

theorem test_rt_V6 :
    stopsAfter [0x48] ({ start with stack := [] }) =
      some .stackUnderflow := by decide

theorem test_rts_V5 :
    nextAfter [0x49] ({ start with stack := [0x7FF] }) (fun t => (t.skip, t.pc, t.stack)) =
      some (true, 0x7FF, []) := by decide

theorem test_tal_V7 :
    nextAfter [0x07] ({ start with acc := 0xA, dpl := 0x3 }) (fun t => (t.acc, t.dpl, t.skip)) =
      some (0xA, 0xA, false) := by decide

theorem test_tla_V8 :
    nextAfter [0x12] ({ start with acc := 0xA, dpl := 0x3 }) (fun t => (t.acc, t.skip)) =
      some (0x3, false) := by decide

theorem test_taz_V9 :
    nextAfter [0x42] ({ start with acc := 0xC, z := 0x1 }) (fun t => (t.acc, t.z, t.skip)) =
      some (0xC, 0xC, false) := by decide

theorem test_taw_V10 :
    nextAfter [0x43] ({ start with acc := 0xC, w := 0x1 }) (fun t => (t.acc, t.w, t.skip)) =
      some (0xC, 0xC, false) := by decide

theorem test_tly_V11 :
    nextAfter [0x46] ({ start with dpl := 0x9, y := 0x0 }) (fun t => (t.y, t.skip)) =
      some (0x9, false) := by decide

theorem test_thx_V12 :
    nextAfter [0x47] ({ start with dph := 0x7, x := 0x0 }) (fun t => (t.x, t.skip)) =
      some (0x7, false) := by decide

theorem test_xaz_V13 :
    nextAfter [0x4A] ({ start with acc := 0x1, z := 0x2 }) (fun t => (t.acc, t.z, t.skip)) =
      some (0x2, 0x1, false) := by decide

theorem test_xaw_V14 :
    nextAfter [0x4B] ({ start with acc := 0x1, w := 0xE }) (fun t => (t.acc, t.w, t.skip)) =
      some (0xE, 0x1, false) := by decide

theorem test_xly_V15 :
    nextAfter [0x4E] ({ start with dpl := 0x4, y := 0xB }) (fun t => (t.dpl, t.y, t.skip)) =
      some (0xB, 0x4, false) := by decide

theorem test_xhx_V16 :
    nextAfter [0x4F] ({ start with dph := 0x4, x := 0xB }) (fun t => (t.dph, t.x, t.skip)) =
      some (0xB, 0x4, false) := by decide

theorem test_xls_V17 :
    nextAfter [0x4C] ({ start with dph := 0x1, dpl := 0x2, s := 0x9, r := 0x8 }) (fun t => (t.dpl, t.s, t.skip)) =
      some (0x9, 0x2, false) := by decide

theorem test_xhr_V18 :
    nextAfter [0x4D] ({ start with dph := 0x1, dpl := 0x2, s := 0x9, r := 0x8 }) (fun t => (t.dph, t.r, t.skip)) =
      some (0x8, 0x1, false) := by decide

/-! ### Arithmetic and logic (95_test_vectors.md V20 on) -/

theorem test_inc_V22 :
    nextAfter [0x0D] ({ start with acc := 0xF, c := false }) (fun t => (t.acc, t.c, t.skip)) =
      some (0x0, true, true) := by decide

theorem test_inc_V23 :
    nextAfter [0x0D] ({ start with cfg := necConfig, acc := 0xF, c := false }) (fun t => (t.acc, t.c, t.skip)) =
      some (0x0, false, true) := by decide

theorem test_dec_V24 :
    nextAfter [0x0F] ({ start with acc := 0x0, c := false }) (fun t => (t.acc, t.c, t.skip)) =
      some (0xF, true, true) := by decide

theorem test_dec_V26 :
    nextAfter [0x0F] ({ start with acc := 0x1, c := true }) (fun t => (t.acc, t.c, t.skip)) =
      some (0x0, false, false) := by decide

theorem test_ad_V28 :
    nextAfter [0x08] ({ start with acc := 0x9, dph := 0x2, dpl := 0x3, c := false, ram := [(0x23, 0x7)] }) (fun t => (t.acc, t.c, t.skip)) =
      some (0x0, true, true) := by decide

theorem test_ad_V29 :
    nextAfter [0x08] ({ start with cfg := necConfig, acc := 0x9, dph := 0x2, dpl := 0x3, c := false, ram := [(0x23, 0x7)] }) (fun t => (t.acc, t.c, t.skip)) =
      some (0x0, false, true) := by decide

theorem test_ads_V31 :
    nextAfter [0x09] ({ start with acc := 0x9, dph := 0x0, dpl := 0x0, c := true, ram := [(0x00, 0x6)] }) (fun t => (t.acc, t.c, t.skip)) =
      some (0x0, true, true) := by decide

theorem test_ads_V32 :
    nextAfter [0x09] ({ start with cfg := necConfig, acc := 0xF, dph := 0x0, dpl := 0x0, c := true, ram := [(0x00, 0xF)] }) (fun t => (t.acc, t.c, t.skip)) =
      some (0xF, true, true) := by decide

theorem test_adc_V33 :
    nextAfter [0x19] ({ start with acc := 0x9, dph := 0x0, dpl := 0x0, c := true, ram := [(0x00, 0x6)] }) (fun t => (t.acc, t.c, t.skip)) =
      some (0x0, true, false) := by decide

theorem test_daa_V35 :
    nextAfter [0x06] ({ start with acc := 0x9, c := true }) (fun t => (t.acc, t.c, t.skip)) =
      some (0xF, false, false) := by decide

theorem test_daa_V37 :
    nextAfter [0x06] ({ start with acc := 0xC, c := false }) (fun t => (t.acc, t.c, t.skip)) =
      some (0x2, true, false) := by decide

theorem test_das_V38 :
    nextAfter [0x0A] ({ start with acc := 0xE, c := false }) (fun t => (t.acc, t.c, t.skip)) =
      some (0x8, true, false) := by decide

theorem test_das_V39 :
    nextAfter [0x0A] ({ start with cfg := necConfig, acc := 0xE, c := false }) (fun t => (t.acc, t.c, t.skip)) =
      some (0x8, false, false) := by decide

theorem test_cma_V41 :
    nextAfter [0x10] ({ start with acc := 0x5, c := true }) (fun t => (t.acc, t.c, t.skip)) =
      some (0xA, true, false) := by decide

theorem test_cia_V42 :
    nextAfter [0x11] ({ start with acc := 0x5, c := false }) (fun t => (t.acc, t.c, t.skip)) =
      some (0xB, false, false) := by decide

theorem test_cia_V43 :
    nextAfter [0x11] ({ start with acc := 0x0, c := false }) (fun t => (t.acc, t.c, t.skip)) =
      some (0x0, false, false) := by decide

theorem test_exl_V44 :
    nextAfter [0x18] ({ start with acc := 0xC, dph := 0xF, dpl := 0xF, c := true, ram := [(0xFF, 0xA)] }) (fun t => (t.acc, t.c, t.skip, cell t 0xFF)) =
      some (0x6, true, false, 0xA) := by decide

theorem test_rar_V45 :
    nextAfter [0x30] ({ start with acc := 0x5, c := false }) (fun t => (t.acc, t.c, t.skip)) =
      some (0x2, true, false) := by decide

theorem test_rar_V46 :
    nextAfter [0x30] ({ start with acc := 0x8, c := true }) (fun t => (t.acc, t.c, t.skip)) =
      some (0xC, false, false) := by decide

theorem test_cm_V47 :
    nextAfter [0x0C] ({ start with acc := 0x7, dph := 0x1, dpl := 0x0, ram := [(0x10, 0x7)] }) (fun t => (t.acc, t.skip)) =
      some (0x7, true) := by decide

theorem test_cm_V48 :
    nextAfter [0x0C] ({ start with acc := 0x7, dph := 0x1, dpl := 0x0, ram := [(0x10, 0x8)] }) (fun t => (t.acc, t.skip)) =
      some (0x7, false) := by decide

/-! ### Memory operations (95_test_vectors.md V50 on) -/

theorem test_li_V51 :
    nextAfter [0x95] ({ start with acc := 0x3, prev := 0x93 }) (fun t => (t.acc, t.skip)) =
      some (0x3, false) := by decide

theorem test_li_V52 :
    nextAfter [0x95] ({ start with acc := 0x3, prev := 0x89 }) (fun t => (t.acc, t.skip)) =
      some (0x5, false) := by decide

theorem test_ldz_V53 :
    nextAfter [0x8C] ({ start with dph := 0x7, dpl := 0x1 }) (fun t => (t.dph, t.dpl, t.skip)) =
      some (0x0, 0xC, false) := by decide

theorem test_ldi_V54 :
    nextAfter [0x15, 0xA7] ({ start with dph := 0x0, dpl := 0x0 }) (fun t => (t.dph, t.dpl, t.skip)) =
      some (0xA, 0x7, false) := by decide

theorem test_s_V55 :
    nextAfter [0x02] ({ start with acc := 0x9, dph := 0x3, dpl := 0x4, ram := [(0x34, 0x0)] }) (fun t => (t.acc, t.skip, cell t 0x34)) =
      some (0x9, false, 0x9) := by decide

theorem test_inm_V56 :
    nextAfter [0x1D] ({ start with dph := 0x0, dpl := 0x1, ram := [(0x01, 0xF)] }) (fun t => (t.c, t.skip, cell t 0x01)) =
      some (false, true, 0x0) := by decide

theorem test_dem_V58 :
    nextAfter [0x1F] ({ start with dph := 0x0, dpl := 0x1, ram := [(0x01, 0x0)] }) (fun t => (t.c, t.skip, cell t 0x01)) =
      some (false, true, 0xF) := by decide

theorem test_ind_V60 :
    nextAfter [0x33] ({ start with dph := 0x2, dpl := 0xF }) (fun t => (t.dpl, t.skip)) =
      some (0x0, true) := by decide

theorem test_ded_V62 :
    nextAfter [0x13] ({ start with dph := 0x2, dpl := 0x0 }) (fun t => (t.dpl, t.skip)) =
      some (0xF, true) := by decide

/-! ### Input and output (95_test_vectors.md V70 on) -/

theorem test_op_V70 :
    nextAfter [0x0E] ({ start with acc := 0xA, dpl := 0x5, dph := 0x9 }) (fun t => (t.skip, latch t 5, t.out)) =
      some (false, 0xA, [(5, 0xA)]) := by decide

theorem test_op_V71 :
    stopsAfter [0x0E] ({ start with acc := 0xA, dpl := 0x0 }) =
      some (.unmappedPort 0) := by decide

theorem test_ip_V73 :
    nextAfter [0x32] ({ start with acc := 0x0, dpl := 0x1, inputs := [0x6] }) (fun t => (t.acc, t.skip)) =
      some (0x6, false) := by decide

theorem test_ip_V75 :
    stopsAfter [0x32] ({ start with acc := 0x0, dpl := 0x4 }) =
      some (.unmappedPort 4) := by decide

theorem test_ia_V76 :
    nextAfter [0x40] ({ start with acc := 0x0, dpl := 0x7, inputs := [0xD] }) (fun t => (t.acc, t.skip)) =
      some (0xD, false) := by decide

theorem test_oe_V77 :
    nextAfter [0x44] ({ start with acc := 0x3, dpl := 0x7, po := State.reset.po.set 4 0x3 }) (fun t => (t.skip, t.out)) =
      some (false, [(4, 0x3)]) := by decide

theorem test_ocd_V78 :
    nextAfter [0x1E, 0xA5] start (fun t => (t.skip, latch t 2, latch t 3, t.out)) =
      some (false, 0x5, 0xA, [(2, 0x5), (3, 0xA)]) := by decide

/-! ### Bit manipulation (95_test_vectors.md V80 on) -/

theorem test_fbf_V80 :
    nextAfter [0x21] ({ start with flag := 0xD }) (fun t => (t.skip)) =
      some (true) := by decide

theorem test_fbf_V81 :
    nextAfter [0x21] ({ start with flag := 0x2 }) (fun t => (t.skip)) =
      some (false) := by decide

theorem test_fbt_V82 :
    nextAfter [0x5F] ({ start with flag := 0x8 }) (fun t => (t.skip)) =
      some (true) := by decide

theorem test_fbt_V83 :
    nextAfter [0x5C] ({ start with flag := 0xE }) (fun t => (t.skip)) =
      some (false) := by decide

theorem test_tab_V84 :
    nextAfter [0x26] ({ start with acc := 0x4 }) (fun t => (t.skip)) =
      some (true) := by decide

theorem test_tab_V85 :
    nextAfter [0x24] ({ start with acc := 0xE }) (fun t => (t.skip)) =
      some (false) := by decide

theorem test_tmb_V86 :
    nextAfter [0x5B] ({ start with dph := 0x4, dpl := 0x4, ram := [(0x44, 0x8)] }) (fun t => (t.skip)) =
      some (true) := by decide

theorem test_tmb_V87 :
    nextAfter [0x58] ({ start with dph := 0x4, dpl := 0x4, ram := [(0x44, 0x8)] }) (fun t => (t.skip)) =
      some (false) := by decide

theorem test_tpa_V88 :
    nextAfter [0x55] ({ start with dpl := 0x9, inputs := [0x2] }) (fun t => (t.skip)) =
      some (true) := by decide

theorem test_tpb_V90 :
    nextAfter [0x52] ({ start with dpl := 0x1, inputs := [0x4] }) (fun t => (t.skip)) =
      some (true) := by decide

theorem test_tpb_V91 :
    stopsAfter [0x52] ({ start with dpl := 0x5 }) =
      some (.unmappedPort 5) := by decide

theorem test_cmb_V92 :
    nextAfter [0x35] ({ start with acc := 0x2, dph := 0x0, dpl := 0x0, ram := [(0x00, 0xF)] }) (fun t => (t.skip)) =
      some (true) := by decide

theorem test_cmb_V94 :
    nextAfter [0x35] ({ start with acc := 0xD, dph := 0x0, dpl := 0x0, ram := [(0x00, 0x2)] }) (fun t => (t.skip)) =
      some (false) := by decide

theorem test_sfb_V95 :
    nextAfter [0x7E] ({ start with flag := 0x1, c := false }) (fun t => (t.flag, t.c, t.skip)) =
      some (0x5, false, false) := by decide

theorem test_rfb_V96 :
    nextAfter [0x6C] ({ start with flag := 0x1 }) (fun t => (t.flag, t.skip)) =
      some (0x0, false) := by decide

theorem test_smb_V98 :
    nextAfter [0x7B] ({ start with dph := 0x1, dpl := 0x2, ram := [(0x12, 0x1)] }) (fun t => (t.skip, cell t 0x12)) =
      some (false, 0x9) := by decide

theorem test_rmb_V99 :
    nextAfter [0x68] ({ start with dph := 0x1, dpl := 0x2, ram := [(0x12, 0xF)] }) (fun t => (t.skip, cell t 0x12)) =
      some (false, 0xE) := by decide

theorem test_seb_V100 :
    nextAfter [0x75] ({ start with po := State.reset.po.set 4 0x8 }) (fun t => (t.skip, latch t 4, t.out)) =
      some (false, 0xA, [(4, 0xA)]) := by decide

theorem test_reb_V102 :
    nextAfter [0x67] ({ start with po := State.reset.po.set 4 0xF }) (fun t => (t.skip, latch t 4, t.out)) =
      some (false, 0x7, [(4, 0x7)]) := by decide

theorem test_spb_V103 :
    nextAfter [0x72] ({ start with dpl := 0x5 }) (fun t => (t.skip)) =
      some (false) := by decide

theorem test_rpb_V104 :
    nextAfter [0x62] ({ start with dpl := 0x5, po := State.reset.po.set 5 0xF }) (fun t => (t.skip)) =
      some (false) := by decide

/-! ### Jumps and calls (95_test_vectors.md V110 on) -/

theorem test_jmp_V110 :
    nextAfter [0xA7, 0xFF] start (fun t => (t.skip, t.pc)) =
      some (false, 0x7FF) := by decide

theorem test_jcp_V113 :
    nextAfter [0xC5] ({ start with pc := 0x13F }) (fun t => (t.skip, t.pc)) =
      some (false, 0x145) := by decide

theorem test_jpa_V115 :
    nextAfter [0x41] ({ start with pc := 0x210, acc := 0xF }) (fun t => (t.skip, t.pc)) =
      some (false, 0x23C) := by decide

theorem test_jpa_V116 :
    nextAfter [0x41] ({ start with pc := 0x23F, acc := 0x1 }) (fun t => (t.skip, t.pc)) =
      some (false, 0x244) := by decide

theorem test_cal_V117 :
    nextAfter [0xAB, 0x21] ({ start with stack := [0x010] }) (fun t => (t.skip, t.pc, t.stack)) =
      some (false, 0x321, [0x102, 0x010]) := by decide

theorem test_cal_V118 :
    stopsAfter [0xA8, 0x00] ({ start with stack := [0x001, 0x002, 0x003] }) =
      some (.stackOverflow 0x102) := by decide

theorem test_czp_V119 :
    nextAfter [0xBF] start (fun t => (t.skip, t.pc, t.stack)) =
      some (false, 0x03C, [0x101]) := by decide

theorem test_czp_V120 :
    nextAfter [0xB0] ({ start with pc := 0x7FF }) (fun t => (t.skip, t.pc, t.stack)) =
      some (false, 0x000, [0x000]) := by decide

/-! ### Control and status (95_test_vectors.md V130 on) -/

theorem test_clc_V130 :
    nextAfter [0x0B] ({ start with c := true, cs := true }) (fun t => (t.c, t.skip, t.pc)) =
      some (false, false, 0x101) := by decide

theorem test_stc_V131 :
    nextAfter [0x1B] ({ start with c := false, cs := false }) (fun t => (t.c, t.skip, t.pc)) =
      some (true, false, 0x101) := by decide

theorem test_xc_V132 :
    nextAfter [0x1A] ({ start with c := true, cs := false }) (fun t => (t.c, t.cs, t.skip, t.pc)) =
      some (false, true, false, 0x101) := by decide

theorem test_tc_V133 :
    nextAfter [0x04] ({ start with c := true }) (fun t => (t.c, t.skip, t.pc)) =
      some (true, true, 0x101) := by decide

theorem test_tc_V134 :
    nextAfter [0x04] ({ start with c := false }) (fun t => (t.c, t.skip, t.pc)) =
      some (false, false, 0x101) := by decide

theorem test_ttm_V135 :
    nextAfter [0x05] ({ start with t := true }) (fun t => (t.t, t.skip, t.pc)) =
      some (true, true, 0x101) := by decide

theorem test_ttm_V136 :
    nextAfter [0x05] ({ start with t := false }) (fun t => (t.t, t.skip, t.pc)) =
      some (false, false, 0x101) := by decide

theorem test_tit_V137 :
    nextAfter [0x03] ({ start with intf := true, ie := false }) (fun t => (t.intf, t.skip, t.pc)) =
      some (false, true, 0x101) := by decide

theorem test_tit_V138 :
    nextAfter [0x03] ({ start with intf := false, ie := false }) (fun t => (t.skip, t.pc)) =
      some (false, 0x101) := by decide

theorem test_stm_V140 :
    nextAfter [0x14, 0xBF] ({ start with t := false, timer := .running 10 }) (fun t => (t.skip, t.pc, t.timer)) =
      some (false, 0x102, .running 4032) := by decide

theorem test_stm_V141 :
    stopsAfter [0x14, 0x3F] ({ start with t := false }) =
      some (.reservedOperand 0x14 0x3F) := by decide

/-! ### Immediate compares (95_test_vectors.md V150 on) -/

theorem test_ci_V150 :
    nextAfter [0x17, 0xCA] ({ start with acc := 0xA }) (fun t => (t.skip, t.pc)) =
      some (true, 0x102) := by decide

theorem test_cli_V152 :
    nextAfter [0x16, 0xE0] ({ start with dpl := 0x0, acc := 0x7 }) (fun t => (t.skip, t.pc)) =
      some (true, 0x102) := by decide

theorem test_ci_V154 :
    stopsAfter [0x17, 0x0A] ({ start with acc := 0xA }) =
      some (.reservedOperand 0x17 0x0A) := by decide

theorem test_cli_V155 :
    stopsAfter [0x16, 0xCA] ({ start with dpl := 0xA }) =
      some (.reservedOperand 0x16 0xCA) := by decide

/-! ### Special (95_test_vectors.md V160 on) -/

theorem test_xm_V160 :
    nextAfter [0x28] ({ start with acc := 0x1, dph := 0x2, dpl := 0x3, x := 0xF, ram := [(0x23, 0x9)] }) (fun t => (t.acc, t.skip, t.pc, cell t 0x23)) =
      some (0x9, false, 0x101, 0x1) := by decide

theorem test_xm_V161 :
    nextAfter [0x2B] ({ start with acc := 0x1, dph := 0x2, dpl := 0x3, x := 0x0, ram := [(0x23, 0x9)] }) (fun t => (t.acc, t.dph, t.skip, t.pc, cell t 0x23)) =
      some (0x9, 0x1, false, 0x101, 0x1) := by decide

theorem test_xmi_V162 :
    nextAfter [0x3D] ({ start with acc := 0x4, dph := 0x0, dpl := 0xF, ram := [(0x0F, 0x7)] }) (fun t => (t.acc, t.dph, t.dpl, t.skip, t.pc, cell t 0x0F)) =
      some (0x7, 0x1, 0x0, true, 0x101, 0x4) := by decide

theorem test_xmi_V163 :
    nextAfter [0x3C] ({ start with acc := 0x4, dph := 0xF, dpl := 0xE, ram := [(0xFE, 0x7)] }) (fun t => (t.acc, t.dpl, t.skip, t.pc, cell t 0xFE)) =
      some (0x7, 0xF, false, 0x101, 0x4) := by decide

theorem test_xmd_V164 :
    nextAfter [0x2E] ({ start with acc := 0x4, dph := 0xF, dpl := 0x0, ram := [(0xF0, 0x7)] }) (fun t => (t.acc, t.dph, t.dpl, t.skip, t.pc, cell t 0xF0)) =
      some (0x7, 0xD, 0xF, true, 0x101, 0x4) := by decide

theorem test_xmd_V165 :
    nextAfter [0x2C] ({ start with acc := 0x4, dph := 0x1, dpl := 0x1, ram := [(0x11, 0x7)] }) (fun t => (t.acc, t.dpl, t.skip, t.pc, cell t 0x11)) =
      some (0x7, 0x0, false, 0x101, 0x4) := by decide

theorem test_lm_V166 :
    nextAfter [0x38] ({ start with acc := 0x0, dph := 0x5, dpl := 0x5, ram := [(0x55, 0xE)] }) (fun t => (t.acc, t.skip, t.pc, cell t 0x55)) =
      some (0xE, false, 0x101, 0xE) := by decide

theorem test_lm_V167 :
    nextAfter [0x3A] ({ start with acc := 0x0, dph := 0x5, dpl := 0x5, ram := [(0x55, 0xE)] }) (fun t => (t.acc, t.dph, t.skip, t.pc, cell t 0x55)) =
      some (0xE, 0x7, false, 0x101, 0xE) := by decide

/-! ### The step: skip, PREV, interrupt, faults (95_test_vectors.md V170 on) -/

theorem test_step_V170 :
    stopsAfter [0x1C] start =
      some (.illegalOpcode 0x1C) := by decide

theorem test_step_V171 :
    stopsAfter [0x45] start =
      some (.illegalOpcode 0x45) := by decide

theorem test_step_V172 :
    nextAfter [0x1C] ({ start with skip := true, prev := 0x0D }) (fun t => (t.skip, t.pc, t.prev)) =
      some (false, 0x101, 0x00) := by decide

theorem test_step_V173 :
    nextAfter [0xA0, 0x40] ({ start with skip := true, prev := 0x0C }) (fun t => (t.skip, t.pc, t.prev)) =
      some (false, 0x102, 0x00) := by decide

theorem test_step_V174 :
    nextAfter [0x17, 0x00] ({ start with skip := true, prev := 0x0C }) (fun t => (t.skip, t.pc, t.prev)) =
      some (false, 0x102, 0x00) := by decide

theorem test_step_V175 :
    nextAfter [0x95] ({ start with skip := true, prev := 0x93, acc := 0x3 }) (fun t => (t.acc, t.skip, t.pc, t.prev)) =
      some (0x3, false, 0x101, 0x00) := by decide

theorem test_step_V176 :
    nextAfter [0x00] ({ start with ie := true, intf := true }) (fun t => (t.ie, t.intf, t.pc, t.stack, t.prev)) =
      some (false, false, 0x03C, [0x100], 0x00) := by decide

theorem test_step_V177 :
    nextAfter [0x00] ({ start with ie := true, intf := true, prev := 0x31 }) (fun t => (t.skip, t.pc, t.prev)) =
      some (false, 0x101, 0x00) := by decide

theorem test_step_V178 :
    nextAfter [0x00] ({ start with ie := true, intf := true, prev := 0x97 }) (fun t => (t.skip, t.pc, t.prev)) =
      some (false, 0x101, 0x00) := by decide

theorem test_step_V179 :
    nextAfter [0x00] ({ start with ie := true, intf := true, skip := true, prev := 0x0D }) (fun t => (t.skip, t.pc, t.prev)) =
      some (false, 0x101, 0x00) := by decide

theorem test_step_V180 :
    nextAfter [0x00] ({ start with ie := false, intf := true }) (fun t => (t.skip, t.pc, t.prev)) =
      some (false, 0x101, 0x00) := by decide

theorem test_step_V181 :
    stopsAfter [0x00] ({ start with ie := true, intf := true, stack := [0x001, 0x002, 0x003] }) =
      some (.stackOverflow 0x100) := by decide

theorem test_step_V182 :
    nextAfter [0x01] ({ start with ie := true, intf := true, c := true, acc := 0x5 }) (fun t => (t.ie, t.intf, t.pc, t.stack, t.prev)) =
      some (false, false, 0x03C, [0x100], 0x00) := by decide

theorem test_step_V183 :
    nextAfter [0x0D] ({ start with pc := 0x7FF, acc := 0x1 }) (fun t => (t.acc, t.skip, t.pc, t.prev)) =
      some (0x2, false, 0x000, 0x0D) := by decide

theorem test_step_V184 :
    stopsAfter [0x15] ({ start with pc := 0x7FF }) =
      some (.fetchUnprogrammed 0x000) := by decide

/-! ### Reset (R29, R250) -/

theorem test_reset_values :
    State.reset.pc = 0x000 ∧ State.reset.ie = false ∧ State.reset.intf = false ∧
    State.reset.skip = false ∧ State.reset.prev = 0x00 ∧ State.reset.timer = .idle ∧
    State.reset.stack = [] ∧ latch State.reset 2 = 0 ∧ latch State.reset 8 = 0 := by decide

theorem test_reset_restores_a_running_machine :
    (resetEvent { start with acc := 5, ie := true, timer := .running 9, stack := [0x123] }).stack = [] ∧
    (resetEvent { start with ie := true }).ie = false ∧
    (resetEvent { start with ram := [(0, 5)] }).ram = [] := by decide

/-- Program memory is empty at reset: the first step asks for a program (log 1). -/
theorem test_reset_asks_for_a_program :
    (match step State.reset with | .fault x => some x | _ => none) = some (.fetchUnprogrammed 0x000) := by
  decide

/-- A cell nothing has written holds some value: the exchange runs and stores ACC (R251, log 5). -/
theorem test_unwritten_cell_is_exchanged :
    nextAfter [0x28] { start with acc := 7, dpl := 1 } (fun t => (cell t 0x01, t.ram)) = some (7, [(1, 7)]) := by
  decide

/-- A stored 0 is a stored value: the cell reads 0 and stays listed. -/
theorem test_stored_zero_reads_zero :
    nextAfter [0x02] { start with ram := [(0, 9)] } (fun t => (cell t 0x00, t.ram)) = some (0, [(0, 0)]) := by
  decide

/-- The latch takes the last of two writes to one port, and both are recorded (R48). -/
theorem test_both_writes_of_ocd_recorded :
    (match exec (.ocd 0xA5) { start with cfg := { adoptedConfig with portMap := { adoptedPortMap with portD := 2 } } } with
      | .next t => some (latch t 2, t.out)
      | _ => none) = some (0xA, [(2, 0x5), (2, 0xA)]) := by decide

theorem test_fetch_word_runs :
    (match step (State.reset.withFetchWord 16 0x23A1) with | .next t => some t.pc | _ => none) =
      some 0x123 := by decide

/-! ### The timer (R241, R243) -/

theorem test_loose_timer_expires :
    nextAfter [0x05] { start with timer := .running 63, events := [⟨false, true⟩] } (fun t => (t.skip, t.timer)) =
      some (true, .idle) := by decide

theorem test_cycle_exact_counts :
    nextAfter [0x15, 0xA7]
      { start with timer := .running 2, cfg := { adoptedConfig with timerModel := .cycleExact } }
      (fun t => (t.t, t.timer)) = some (true, .idle) := by decide

/-! ### Witnesses: for every statement with hypotheses, a case that meets them, each clause at its edge -/

/-- Only address 0x00 holds a cell. -/
def oneCell : Config := { adoptedConfig with ramMap := [{ base := 0, size := 1 }] }

/-- Port A, port D and port E are absent; port C is there. -/
def fewPorts : Config :=
  { adoptedConfig with portMap := { adoptedPortMap with readable := [3], writable := [2, 8] } }

/-- Program memory ends before 0x100. -/
def smallRom : Config := { adoptedConfig with romSize := 0x100 }

/-- The other value of the two policies. -/
def lenient : Config := { necConfig with reservedOperand := .ignorePrefix, timerModel := .cycleExact }

/-- The state after a step, or the state itself where it stops. -/
def after (s : State) : State :=
  match step s with
  | .next t => t
  | _ => s

/-- `bytes` at pc of `start`. -/
def loaded (bytes : List Byte) : State := placeBytes 0x100 bytes start

theorem witness_EncodeInvertsDecode : decode [0x95, 0x00] = .ok (.li 5, [0x00]) := rfl

theorem witness_InstructionLengthByFirstByte :
    decode [0xA0, 0x00] = .ok (.jmp 0, []) ∧ decode [0xAF, 0xFF, 0x01] = .ok (.cal 0x7FF, [0x01]) ∧
    decode [0x9F] = .ok (.li 15, []) ∧ decode [0xB0] = .ok (.czp 0, []) ∧
    decode [0x14, 0x80] = .ok (.stm 2 0, []) ∧ decode [0x13] = .ok (.ded, []) := ⟨rfl, rfl, rfl, rfl, rfl, rfl⟩

theorem witness_StepRunsTheDecodedInstruction :
    acceptInterrupt (boundary (loaded [0x95])) = false ∧ (boundary (loaded [0x95])).skip = false ∧
    fetch (boundary (loaded [0x95])) = .ok ⟨0x95, []⟩ ∧ decode [0x95] = .ok (.li 5, []) :=
  ⟨rfl, rfl, rfl, rfl⟩

theorem witness_SkipPassesOverOneInstruction :
    (boundary { loaded [0x1C] with skip := true }).skip = true ∧
    fetch (boundary { loaded [0x1C] with skip := true }) = .ok ⟨0x1C, []⟩ ∧
    fetch (boundary { loaded [0xA0, 0x40] with skip := true }) = .ok ⟨0xA0, [0x40]⟩ := ⟨rfl, rfl, rfl⟩

/-- Both clauses; for the first, a stack with one free entry and a full one; for the second, each term. -/
theorem witness_InterruptIsTakenExactlyWhenAcceptable :
    (∃ b : State, b = boundary { start with ie := true, intf := true, stack := [1, 2] } ∧ b.ie = true ∧
      b.intf = true ∧ b.skip = false ∧ b.prev.toNat / 16 ≠ 9 ∧ b.prev ≠ 0x31 ∧
      b.stack.length < b.cfg.stackDepth) ∧
    (∃ b : State, b = boundary { start with ie := true, intf := true, stack := [1, 2, 3], prev := 0xA0 } ∧
      b.ie = true ∧ b.intf = true ∧ b.skip = false ∧ b.prev.toNat / 16 ≠ 9 ∧ b.prev ≠ 0x31 ∧
      ¬ b.stack.length < b.cfg.stackDepth) ∧
    (boundary start).ie = false ∧ (boundary { start with ie := true }).intf = false ∧
    (boundary { start with skip := true }).skip = true ∧
    (boundary { start with prev := 0x9F }).prev.toNat / 16 = 9 ∧
    (boundary { start with prev := 0x31 }).prev = 0x31 :=
  ⟨⟨_, rfl, by decide⟩, ⟨_, rfl, by decide⟩, by decide⟩

theorem witness_FetchReadsOneOrTwoBytes :
    progByte start start.pc = none ∧
    (progByte (loaded [0x9F]) 0x100 = some 0x9F ∧ byteLength 0x9F = 1) ∧
    (progByte (loaded [0xA0]) 0x100 = some 0xA0 ∧ byteLength 0xA0 = 2 ∧ progByte (loaded [0xA0]) 0x101 = none) ∧
    progByte (loaded [0xA0, 0x05]) 0x101 = some 0x05 ∧
    (({ loaded [0x9F] with cfg := smallRom } : State).cfg.romSize ≤ (0x100 : PAddr).toNat ∧
      ¬ ({ loaded [0x9F] with cfg := smallRom } : State).cfg.romSize ≤ (0x0FF : PAddr).toNat) ∧
    (acceptInterrupt (boundary start) = false ∧ fetch (boundary start) = .error (.fetchUnprogrammed 0x100)) :=
  ⟨rfl, ⟨rfl, rfl⟩, ⟨rfl, rfl, rfl⟩, rfl, by decide, rfl, rfl⟩

/-- Both forms of the schedule; for the exhausted one a running timer, an idle one and cycle_exact. -/
theorem witness_BoundaryEventsActOnTheirFlagsOnly :
    ({ start with events := [⟨true, true⟩], timer := .running 1 } : State).events = ⟨true, true⟩ :: [] ∧
    start.cfg.timerModel = .loose ∧ lenient.timerModel = .cycleExact ∧ start.timer = .idle ∧
    start.events = ⟨false, false⟩ :: [] ∧ State.reset.events = [] ∧
    ({ State.reset with timer := .running 1 } : State).timer = .running 1 ∧
    State.reset.cfg.timerModel = .loose ∧ State.reset.timer = .idle ∧
    ({ State.reset with cfg := lenient } : State).cfg.timerModel = .cycleExact := by decide

/-- No count: loose, idle or right after STM; a count of 1 over 2, and of 2 over 2. -/
theorem witness_CyclesCountDownTheTimer :
    State.reset.cfg.timerModel = .loose ∧ State.reset.timer = .idle ∧
    ({ start with prev := 0x14 } : State).prev = 0x14 ∧
    (∃ s : State, s.cfg.timerModel = .cycleExact ∧ s.timer = .running 2 ∧ s.prev ≠ 0x14 ∧ 1 < 2 ∧ 2 ≤ 2) :=
  ⟨rfl, rfl, rfl, { start with cfg := lenient, timer := .running 2 }, by decide⟩

/-- An interrupt, an instruction passed over and one executed, each in a step that answers a next state. -/
theorem witness_PrevNamesTheExecutedInstruction :
    (∃ s t : State, step s = .next t ∧ acceptInterrupt (boundary s) = true) ∧
    (∃ s t : State, step s = .next t ∧ acceptInterrupt (boundary s) = false ∧ (boundary s).skip = true) ∧
    (∃ s t : State, step s = .next t ∧ acceptInterrupt (boundary s) = false ∧ (boundary s).skip = false) :=
  ⟨⟨{ start with ie := true, intf := true }, _, rfl, rfl⟩,
    ⟨{ loaded [0x00] with skip := true }, _, rfl, rfl, rfl⟩, ⟨loaded [0x0D], _, rfl, rfl, rfl⟩⟩

theorem adopted_legal : adoptedConfig.legal := ⟨rfl, rfl, by decide, by decide⟩

/-- A plain state, and one at the edge of each clause: a full stack, the longest count, a pending skip. -/
theorem witness_EveryStepKeepsTheInvariant :
    ((loaded [0x0D]).Inv ∧ step (loaded [0x0D]) = .next (after (loaded [0x0D]))) ∧
    (∃ s t : State, s.Inv ∧ step s = .next t ∧ s.stack.length = s.cfg.stackDepth ∧
      s.timer = .running 4032 ∧ s.skip = true) :=
  ⟨⟨⟨adopted_legal, ⟨rfl, rfl⟩, by decide, trivial, by decide, by decide⟩, rfl⟩,
    { loaded [0x00] with stack := [1, 2, 3], timer := .running 4032, skip := true, prev := 0x0D }, _,
    ⟨adopted_legal, ⟨rfl, rfl⟩, by decide, ⟨by decide, by decide⟩, by decide, fun _ => rfl⟩, rfl, rfl, rfl, rfl⟩

theorem witness_NoStepWritesProgramMemory : step (loaded [0x02]) = .next (after (loaded [0x02])) := rfl

theorem witness_OnlyListedInstructionsSkip :
    ∃ s t : State, exec .inc s = .next t ∧ s.skip = false ∧ t.skip = true :=
  ⟨{ start with acc := 0xF }, _, rfl, by decide⟩

theorem witness_OnlyListedInstructionsWriteCarry :
    (∃ s t : State, exec .stc s = .next t ∧ t.c ≠ s.c ∧ s.cfg.carryPolicy = .nec) ∧
    (∃ s t : State, exec .inc s = .next t ∧ t.c ≠ s.c ∧ s.cfg.carryPolicy = .table) :=
  ⟨⟨{ start with cfg := necConfig }, _, rfl, by decide⟩, ⟨{ start with acc := 0xF }, _, rfl, by decide⟩⟩

/-- One instruction that changes each register and flag of the statement. -/
theorem witness_RegistersHaveTheirOwnWriters :
    (∃ s t : State, exec .tla s = .next t ∧ t.acc ≠ s.acc) ∧
    (∃ s t : State, exec (.ldi 0x11) s = .next t ∧ t.dph ≠ s.dph ∧ t.dpl ≠ s.dpl) ∧
    (∃ s t : State, exec .taz s = .next t ∧ t.z ≠ s.z) ∧ (∃ s t : State, exec .taw s = .next t ∧ t.w ≠ s.w) ∧
    (∃ s t : State, exec .thx s = .next t ∧ t.x ≠ s.x) ∧ (∃ s t : State, exec .tly s = .next t ∧ t.y ≠ s.y) ∧
    (∃ s t : State, exec .xhr s = .next t ∧ t.r ≠ s.r) ∧ (∃ s t : State, exec .xls s = .next t ∧ t.s ≠ s.s) ∧
    (∃ s t : State, exec .xc s = .next t ∧ t.cs ≠ s.cs) ∧
    (∃ s t : State, exec (.stm 2 0) s = .next t ∧ t.t ≠ s.t ∧ t.timer ≠ s.timer) ∧
    (∃ s t : State, exec .ei s = .next t ∧ t.ie ≠ s.ie) ∧ (∃ s t : State, exec .tit s = .next t ∧ t.intf ≠ s.intf) ∧
    (∃ s t : State, exec (.sfb 3) s = .next t ∧ t.flag ≠ s.flag) :=
  ⟨⟨{ start with dpl := 1 }, _, rfl, by decide⟩, ⟨start, _, rfl, by decide⟩,
    ⟨{ start with acc := 1 }, _, rfl, by decide⟩, ⟨{ start with acc := 1 }, _, rfl, by decide⟩,
    ⟨{ start with dph := 1 }, _, rfl, by decide⟩, ⟨{ start with dpl := 1 }, _, rfl, by decide⟩,
    ⟨{ start with dph := 1 }, _, rfl, by decide⟩, ⟨{ start with dpl := 1 }, _, rfl, by decide⟩,
    ⟨{ start with c := true }, _, rfl, by decide⟩, ⟨{ start with t := true }, _, rfl, by decide⟩,
    ⟨start, _, rfl, by decide⟩, ⟨{ start with intf := true }, _, rfl, by decide⟩, ⟨start, _, rfl, by decide⟩⟩

/-- A store, with another cell to compare, and an instruction that stores nothing. -/
theorem witness_StoresGoToTheCellAtDp :
    (∃ t, exec .s { start with acc := 9, dph := 0xF, dpl := 0xF } = .next t ∧
      (0x00 : Byte) ≠ dp { start with acc := 9, dph := 0xF, dpl := 0xF }) ∧
    (∃ t, exec .cm start = .next t ∧ Instr.cm.storesRam = false) :=
  ⟨⟨_, rfl, by decide⟩, ⟨_, rfl, rfl⟩⟩

theorem witness_PortsChangeByPortInstructionsOnly :
    (∃ t, exec (.ocd 0xA5) start = .next t ∧ Instr.readsPort (.ocd 0xA5) = false) ∧
    (∃ t, exec .nop start = .next t ∧ Instr.nop.writesPort = false) ∧
    (∃ t, exec .ia { start with inputs := [3] } = .next t) := ⟨⟨_, rfl, rfl⟩, ⟨_, rfl, rfl⟩, ⟨_, rfl⟩⟩

theorem witness_OnlyTransfersWritePcAndStack :
    (∃ t : State, exec (.cal 0x321) start = .next t ∧ t.pc ≠ start.pc ∧ t.stack ≠ start.stack) ∧
    (∃ s t : State, exec .rt s = .next t ∧ t.stack ≠ s.stack) :=
  ⟨⟨_, rfl, by decide⟩, ⟨{ start with stack := [0x123] }, _, rfl, by decide⟩⟩

theorem witness_SkipDoesNotDependOnCarryPolicy :
    ∃ t u : State, exec .inc { start with acc := 0xF } = .next t ∧
      exec .inc { start with acc := 0xF, cfg := { start.cfg with carryPolicy := .nec } } = .next u :=
  ⟨_, _, rfl, rfl⟩

theorem witness_SideRegistersInfluenceOnlyTheirInstructions :
    Instr.ad ≠ .xc ∧ Instr.ad ≠ .xhr ∧ Instr.ad ≠ .xls ∧ (Instr.ad ≠ .taz ∧ Instr.ad ≠ .xaz) ∧
    (Instr.ad ≠ .taw ∧ Instr.ad ≠ .xaw) ∧ (Instr.ad ≠ .thx ∧ Instr.ad ≠ .xhx) ∧
    (Instr.ad ≠ .tly ∧ Instr.ad ≠ .xly) ∧ (Instr.ad ≠ .di ∧ Instr.ad ≠ .ei) ∧ ∀ n, Instr.ad ≠ .li n := by
  simp

theorem witness_OutputHistoryOnlyGrows :
    ∃ t : State, Host.Core.run Sys2Proof.core 1 (loaded [0x44]) = .next t ∧ t.out ≠ (loaded [0x44]).out :=
  ⟨after (loaded [0x44]), rfl, by decide⟩

theorem witness_NoRequestNoInterrupt :
    (loaded [0x31]).noRequests ∧ (loaded [0x31]).intf = false ∧
    Host.Core.run Sys2Proof.core 1 (loaded [0x31]) = .next (after (loaded [0x31])) :=
  ⟨by intro b hb; simp [loaded, start, placeBytes] at hb; simp [hb], rfl, rfl⟩

/-- A fault of every kind a meaning can raise. -/
theorem witness_FaultsOnlyWhereRulesRaise :
    exec .unassigned1C start = .fault (.illegalOpcode 0x1C) ∧
    exec .unassigned45 start = .fault (.illegalOpcode 0x45) ∧
    exec (.ci 0x0 10) start = .fault (.reservedOperand 0x17 0x0A) ∧
    exec (.czp 0) { start with stack := [1, 2, 3] } = .fault (.stackOverflow 0x100) ∧
    exec .rts start = .fault .stackUnderflow ∧
    exec .s { start with dpl := 1, cfg := oneCell } = .fault (.unmappedRam 0x01) ∧
    exec .ip { start with dpl := 4 } = .fault (.unmappedPort 4) ∧
    exec .op { start with dpl := 9 } = .fault (.unmappedPort 9) ∧
    exec (.ocd 0) { start with cfg := fewPorts } = .fault (.unmappedPort 3) ∧
    exec (.seb 0) { start with cfg := fewPorts } = .fault (.unmappedPort 4) ∧
    exec .ia { start with cfg := fewPorts } = .fault (.unmappedPort 0) :=
  ⟨rfl, rfl, rfl, rfl, rfl, rfl, rfl, rfl, rfl, rfl, rfl⟩

/-- The ports just outside the adopted map, from OP, IP and TPB. -/
theorem witness_AdoptedMapsConfineFaults :
    start.cfg = adoptedConfig ∧ exec .op { start with dpl := 1 } = .fault (.unmappedPort 1) ∧
    exec .op { start with dpl := 9 } = .fault (.unmappedPort 9) ∧
    exec .ip { start with dpl := 4 } = .fault (.unmappedPort 4) ∧
    exec (.tpb 3) { start with dpl := 15 } = .fault (.unmappedPort 15) := ⟨rfl, rfl, rfl, rfl, rfl⟩

theorem witness_OnlyTheFirstLiOfASequenceLoads :
    acceptInterrupt (boundary (loaded [0x97, 0x98])) = false ∧ (boundary (loaded [0x97, 0x98])).skip = false ∧
    progByte (boundary (loaded [0x97, 0x98])) (boundary (loaded [0x97, 0x98])).pc = some (0x9#4 ++ 0x7#4) ∧
    step (loaded [0x97, 0x98]) = .next (after (loaded [0x97, 0x98])) ∧
    progByte (after (loaded [0x97, 0x98])) (after (loaded [0x97, 0x98])).pc = some (0x9#4 ++ 0x8#4) :=
  ⟨rfl, rfl, rfl, rfl, rfl⟩

theorem witness_ResetPutsTheMachineInItsResetState :
    (2 ≤ (2 : Nibble).toNat ∧ (2 : Nibble).toNat ≤ 8) ∧ (2 ≤ (8 : Nibble).toNat ∧ (8 : Nibble).toNat ≤ 8) := by
  decide

theorem witness_ReturnsPopTheStack :
    (({ start with stack := [0x7FF] } : State).stack = 0x7FF :: [] ∧ start.stack = []) ∧
    ({ loaded [0xA1, 0x00] with skip := true } : State).skip = true ∧
    fetch (boundary { loaded [0xA1, 0x00] with skip := true }) = .ok ⟨0xA1, [0x00]⟩ :=
  ⟨by decide, rfl, rfl⟩

theorem witness_EnableAndCarryInstructions :
    start.ie = false ∧ ({ start with ie := true, prev := 0x31 } : State).prev = 0x31 := by decide

theorem witness_ExchangingTwiceRestores : Instr.xls ∈ [Instr.xaz, .xaw, .xly, .xhx, .xls, .xhr] := by decide

/-- The last mapped and the first absent address, for every statement about the cell at DP. -/
theorem witness_cell_at_dp :
    ramMapped oneCell (dp { start with cfg := oneCell }) = true ∧
    ramMapped oneCell (dp { start with cfg := oneCell, dpl := 1 }) = false ∧
    ramMapped start.cfg (dp { start with dph := 0xF, dpl := 0xF }) = true := by decide

theorem witness_PolicyArithmeticResults : ramMapped start.cfg (dp start) = true := by decide

theorem witness_AdsAndAdcAddWithCarry : ramMapped start.cfg (dp start) = true := by decide

theorem witness_DecimalDigitAdditionIsCorrect :
    ∃ s : State, s.cfg.carryPolicy = .nec ∧ ramMapped s.cfg (dp s) = true ∧ s.acc.toNat ≤ 9 ∧
      (cell s (dp s)).toNat ≤ 9 ∧ 19 = s.acc.toNat + (cell s (dp s)).toNat + s.c.toNat :=
  ⟨{ start with cfg := necConfig, acc := 9, c := true, ram := [(0, 9)] }, by decide⟩

theorem witness_LogicalOperationsOnAcc :
    ramMapped start.cfg (dp start) = true ∧
    ramMapped oneCell (dp { start with cfg := oneCell, dpl := 1 }) = false := by decide

theorem witness_RarRotatesThroughCarry : 0 < 3 ∧ 2 < 3 := by decide

theorem witness_CellTestsSkipOnTheirCondition :
    ramMapped start.cfg (dp start) = true ∧
    ramMapped oneCell (dp { start with cfg := oneCell, dpl := 1 }) = false := by decide

theorem witness_StoreAndCountTheCellAtDp :
    ramMapped start.cfg (dp start) = true ∧ (0xFF : Byte) ≠ dp start ∧
    ramMapped oneCell (dp { start with cfg := oneCell, dpl := 1 }) = false := by decide

/-- Each clause about a port that is there and one that is not. -/
theorem witness_OutputInstructionsWriteTheirPorts :
    adoptedConfig.portMap.writable.contains 2 = true ∧ adoptedConfig.portMap.writable.contains 8 = true ∧
    adoptedConfig.portMap.writable.contains 1 = false ∧ adoptedConfig.portMap.writable.contains 9 = false ∧
    adoptedConfig.portMap.writable.contains adoptedConfig.portMap.portC = true ∧
    adoptedConfig.portMap.writable.contains adoptedConfig.portMap.portD = true ∧
    adoptedConfig.portMap.writable.contains adoptedConfig.portMap.portE = true ∧
    adoptedConfig.portMap.portC ≠ adoptedConfig.portMap.portD ∧
    fewPorts.portMap.writable.contains fewPorts.portMap.portC = true ∧
    fewPorts.portMap.writable.contains fewPorts.portMap.portD = false ∧
    fewPorts.portMap.writable.contains fewPorts.portMap.portE = false ∧
    ({ adoptedPortMap with writable := [3] } : PortMap).writable.contains 2 = false := by decide

theorem witness_PortReadsTakeTheEnvironmentsValue :
    ({ start with inputs := [0xD] } : State).inputs = 0xD :: [] ∧ start.inputs = [] ∧
    adoptedConfig.portMap.readable.contains 3 = true ∧ adoptedConfig.portMap.readable.contains 4 = false ∧
    adoptedConfig.portMap.readable.contains adoptedConfig.portMap.portA = true ∧
    fewPorts.portMap.readable.contains fewPorts.portMap.portA = false := by decide

theorem witness_SmbAndRmbForceOneCellBit :
    ramMapped start.cfg (dp start) = true ∧ (0x01 : Byte) ≠ dp start ∧
    ramMapped oneCell (dp { start with cfg := oneCell, dpl := 1 }) = false := by decide

theorem witness_SebAndRebForceOnePortEBit :
    adoptedConfig.portMap.writable.contains adoptedConfig.portMap.portE = true ∧
    fewPorts.portMap.writable.contains fewPorts.portMap.portE = false := by decide

theorem witness_CallsPushTheAdvancedPc :
    ({ start with stack := [1, 2] } : State).stack.length < start.cfg.stackDepth ∧
    start.cfg.stackDepth ≤ ({ start with stack := [1, 2, 3] } : State).stack.length := by decide

theorem witness_ReturnUndoesCallAndInterruptEntry :
    (∃ t : State, exec (.cal 0x7FF) start = .next t ∧ t.stack = [0x100]) ∧
    (∃ t : State, exec (.czp 15) start = .next t ∧ t.stack = [0x100]) ∧
    (∃ t : State, acceptInterrupt (boundary { start with ie := true, intf := true }) = true ∧
      step { start with ie := true, intf := true } = .next t ∧ t.stack = [0x100]) :=
  ⟨⟨_, rfl, rfl⟩, ⟨_, rfl, rfl⟩, ⟨_, rfl, rfl, rfl⟩⟩

/-- The right prefix, a wrong one under each policy. -/
theorem witness_TimerAndInterruptFlagInstructions :
    (2 : BitVec 2) = 2 ∧ lenient.reservedOperand = .ignorePrefix ∧ (3 : BitVec 2) ≠ 2 ∧ (1 : BitVec 2) ≠ 2 ∧
    start.cfg.reservedOperand = .fault := by decide

theorem witness_ImmediateComparesSkipOnEquality :
    lenient.reservedOperand = .ignorePrefix ∧ (0xD : BitVec 4) ≠ 0xC ∧ (0xF : BitVec 4) ≠ 0xE ∧
    start.cfg.reservedOperand = .fault := by decide

theorem witness_ExchangesWithTheCellAtDp :
    ramMapped start.cfg (dp start) = true ∧ (0x10 : Byte) ≠ dp start ∧
    ramMapped oneCell (dp { start with cfg := oneCell, dpl := 1 }) = false := by decide

theorem witness_TwoPureExchangesRestore : ramMapped start.cfg (dp start) = true := by decide

end Sys2Proof.Tests
end

/-! PROOFS of the family 00_scope.md: what a fetch answers, the reset state, and the invariant that every
step keeps. -/

namespace Sys2Proof.Machine

/-! ### Fetch faults -/

/-- Where a fetch ends in a fault: at pc, or at the second byte that the first one asks for (R73, R224). -/
theorem fetch_error {s : State} {x : Fault} :
    fetch s = .error x ↔
      (progByte s s.pc = none ∧ x = .fetchUnprogrammed s.pc) ∨
      (∃ first, progByte s s.pc = some first ∧ byteLength first = 2 ∧
        progByte s (s.pc + 1) = none ∧ x = .fetchUnprogrammed (s.pc + 1)) := by
  constructor
  · intro h
    unfold fetch at h
    split at h
    · next f hf =>
      obtain ⟨hnone, rfl⟩ := progRead_error.1 hf
      cases h
      exact .inl ⟨hnone, rfl⟩
    · next first hf =>
      split at h
      · next h2 =>
        split at h
        · next f hf' =>
          obtain ⟨hnone, rfl⟩ := progRead_error.1 hf'
          cases h
          exact .inr ⟨first, progRead_ok.1 hf, h2, hnone, rfl⟩
        · cases h
      · cases h
  · rintro (⟨hnone, rfl⟩ | ⟨first, hfirst, h2, hnone, rfl⟩)
    · rw [fetch, progRead_error.2 ⟨hnone, rfl⟩]
    · rw [fetch, progRead_ok.2 hfirst]
      simp only [h2, if_true, progRead_error.2 ⟨hnone, rfl⟩]

/-- No byte is defined at or above ROM_SIZE (R3; logs 1 and 2). -/
theorem progByte_of_romSize_le {s : State} {a : PAddr} (h : s.cfg.romSize ≤ a.toNat) :
    progByte s a = none :=
  if_neg (Nat.not_lt.2 h)

/-- Where no interrupt is taken, a fetch fault is the step's fault, under a skip too (R224, decision D8). -/
theorem step_of_fetch_error {s : State} {x : Fault} (hacc : acceptInterrupt (boundary s) = false)
    (hf : fetch (boundary s) = .error x) : step s = .fault x := by
  simp [step, hacc, fetchAndExecute, hf]

/-! ### Decoding and the first byte -/

/-- The second byte chooses this row's operand and not whether its instruction can skip. -/
def OpcodeRow.SkipsByFirst (row : OpcodeRow) : Prop :=
  ∀ first a b : Byte, (row.build first a).canSkip = (row.build first b).canSkip

theorem opcodeRows_skipsByFirst : ∀ row ∈ opcodeRows, OpcodeRow.SkipsByFirst row := by
  rw [← List.forall_iff_forall_mem]
  repeat' apply And.intro
  all_goals exact fun _ _ _ => rfl

/-- A pair of bytes decodes by the row of the opcode map that its first byte selects. -/
theorem decodePair_ok {first second : Byte} {i : Instr} :
    decodePair first second = .ok i ↔
      ∃ row, opcodeRows.find? (fun row => row.selects first) = some row ∧ i = row.build first second := by
  unfold decodePair
  split
  · next row hrow => simp [hrow, eq_comm]
  · next hnone => simp [hnone]

theorem decodePair_of_map_ok {first second : Byte} {l rest : List Byte} {i : Instr}
    (h : (decodePair first second).map (fun j => (j, l)) = .ok (i, rest)) :
    decodePair first second = .ok i := by
  cases hd : decodePair first second with
  | error e => simp [hd, Except.map] at h
  | ok j => simp_all [Except.map]

/-- An instruction decoded from a list of bytes is that of its first byte and some second byte. -/
theorem decode_cons_ok {first : Byte} {tail rest : List Byte} {i : Instr}
    (h : decode (first :: tail) = .ok (i, rest)) : ∃ second, decodePair first second = .ok i := by
  simp only [decode] at h
  split at h
  · cases tail with
    | nil => cases h
    | cons second tail => exact ⟨second, decodePair_of_map_ok h⟩
  · exact ⟨0, decodePair_of_map_ok h⟩

/-- Whether an instruction can skip is known from its first byte, which PREV keeps (R74, R75). -/
theorem firstByteCanSkip_of_decodePair {first second : Byte} {i : Instr}
    (h : decodePair first second = .ok i) : firstByteCanSkip first = i.canSkip := by
  obtain ⟨row, hrow, rfl⟩ := decodePair_ok.1 h
  have hzero : decodePair first 0x00 = .ok (row.build first 0x00) := decodePair_ok.2 ⟨row, hrow, rfl⟩
  rw [firstByteCanSkip, hzero]
  exact opcodeRows_skipsByFirst row (List.mem_of_find?_eq_some hrow) first 0x00 second

/-! ### What executing an instruction does to the machine behind the registers -/

/-- All that executing `i` can do from `s` to `t` to the parameters, the memories, the stack, the timer
and SKIP. A field's default proves that its part is left alone, or that `i` is listed in R74; what an
instruction does beyond that is given where the structure is built. -/
structure ExecMoves (i : Instr) (s t : State) : Prop where
  cfg : t.cfg = s.cfg := by simp
  rom : t.rom = s.rom := by simp
  /-- RAM is as it was, or one cell was stored -/
  ram : t.ram = s.ram ∨ ∃ (a : Byte) (v : Nibble), t.ram = Memory.write s.ram a.toNat v := by simp
  /-- the stack is as it was, or one entry was popped, or one was pushed where there was room -/
  stack : t.stack = s.stack ∨ (∃ v, s.stack = v :: t.stack) ∨
    (s.stack.length < s.cfg.stackDepth ∧ ∃ v, t.stack = v :: s.stack) := by simp
  /-- the timer and T are as they were, or STM started the timer (R196) -/
  timer : (t.timer = s.timer ∧ t.t = s.t) ∨
    ∃ n : BitVec 6, t.timer = .running ((n.toNat + 1) * 63) ∧ t.t = false := by simp
  skip : t.skip = s.skip ∨ i.canSkip = true := by simp [Instr.canSkip]

theorem exec_moves {i : Instr} {s t : State} (h : exec i s = .next t) : ExecMoves i s t := by
  cases i with
  | nop | spb | rpb | di | ei | tal | tla | taz | taw | tly | thx | xaz | xaw | xly | xhx | xls | xhr
  | das | daa | cma | cia | rar | ldz | ldi | sfb | rfb | jmp | jcp | jpa | clc | stc | xc
  | inc | dec | ind | ded | fbf | fbt | tab | tc | ttm | tit =>
    cases h
    exact {}
  | li n =>
    simp only [exec, execLi] at h
    split at h <;> cases h <;> exact {}
  | ad | ads | adc | exl | cm | tmb | cmb | lm =>
    obtain ⟨m, -, h⟩ := andThen_next.1 h
    cases h
    exact {}
  | s =>
    obtain ⟨u, hu, h⟩ := andThen_next.1 h
    obtain ⟨-, rfl⟩ := storeDp_ok.1 hu
    cases h
    exact { ram := .inr ⟨_, _, rfl⟩ }
  | inm | dem | smb | rmb =>
    obtain ⟨m, -, h⟩ := andThen_next.1 h
    obtain ⟨u, hu, h⟩ := andThen_next.1 h
    obtain ⟨-, rfl⟩ := storeDp_ok.1 hu
    cases h
    exact { ram := .inr ⟨_, _, rfl⟩ }
  | xm | xmi | xmd =>
    obtain ⟨u, hu, h⟩ := andThen_next.1 h
    obtain ⟨-, rfl⟩ := exchangeCell_ok.1 hu
    cases h
    exact { ram := .inr ⟨_, _, rfl⟩ }
  | ip | ia | tpa | tpb =>
    obtain ⟨vt, hvt, h⟩ := andThen_next.1 h
    obtain ⟨-, rfl⟩ := portRead_ok.1 hvt
    cases h
    exact {}
  | op | oe | seb | reb =>
    obtain ⟨u, hu, h⟩ := andThen_next.1 h
    obtain ⟨-, rfl⟩ := portWrite_ok.1 hu
    cases h
    exact {}
  | ocd imm8 =>
    obtain ⟨u, hu, h⟩ := andThen_next.1 h
    obtain ⟨-, rfl⟩ := portWrite_ok.1 hu
    obtain ⟨w, hw, h⟩ := andThen_next.1 h
    obtain ⟨-, rfl⟩ := portWrite_ok.1 hw
    cases h
    exact {}
  | cal | czp =>
    obtain ⟨u, hu, h⟩ := andThen_next.1 h
    obtain ⟨hroom, rfl⟩ := callTo_ok.1 hu
    cases h
    exact { stack := .inr (.inr ⟨hroom, _, rfl⟩) }
  | rt | rts =>
    obtain ⟨u, hu, h⟩ := andThen_next.1 h
    obtain ⟨v, rest, hstack, rfl⟩ := returnFrom_ok.1 hu
    cases h
    exact { stack := .inr (.inl ⟨v, hstack⟩) }
  | ci | cli =>
    obtain ⟨-, -, h⟩ := andThen_next.1 h
    cases h
    exact {}
  | stm pfx n =>
    obtain ⟨-, -, h⟩ := andThen_next.1 h
    cases h
    exact { timer := .inr ⟨n, rfl, rfl⟩ }
  | unassigned1C | unassigned45 => cases h

/-! ### The invariant along the parts of a step -/

/-- The count that STM loads, 63 to 4032, is a legal one (R196). -/
theorem Timer.legal_start (n : BitVec 6) : (Timer.running ((n.toNat + 1) * 63)).legal := by
  have := n.isLt
  exact ⟨by omega, by omega⟩

/-- Counting down or expiring keeps the invariant's two clauses about the timer. -/
theorem TimerMoves.keeps_legal {s t : State} (hm : TimerMoves s t) (hcount : s.timer.legal)
    (hexp : s.t = true → s.timer = .idle) : t.timer.legal ∧ (t.t = true → t.timer = .idle) := by
  obtain ⟨htimer, hT⟩ | ⟨k, -, htimer, -⟩ | ⟨k, n, hk, hlt, htimer, hT⟩ := hm
  · rw [htimer, hT]
    exact ⟨hcount, hexp⟩
  · rw [htimer]
    exact ⟨trivial, fun _ => rfl⟩
  · rw [hk] at hcount
    obtain ⟨hpos, hmax⟩ := hcount
    refine ⟨?_, fun hset => ?_⟩
    · rw [htimer]
      exact ⟨by omega, by omega⟩
    · have hidle := hexp (hT ▸ hset)
      simp [hk] at hidle

/-- A step of the timer that leaves all else the invariant speaks of keeps the invariant. -/
theorem TimerMoves.keeps_inv {s t : State} (hm : TimerMoves s t) (hs : s.Inv) (hcfg : t.cfg = s.cfg)
    (hram : t.ram = s.ram) (hrom : t.rom = s.rom) (hstack : t.stack = s.stack) (hskip : t.skip = s.skip)
    (hprev : t.prev = s.prev) : t.Inv := by
  obtain ⟨hcount, hexp⟩ := hm.keeps_legal hs.count hs.expired
  exact
    { params := hcfg ▸ hs.params
      mem := by simpa [State.memWf, hram, hrom] using hs.mem
      depth := by simpa [hstack, hcfg] using hs.depth
      count := hcount
      expired := hexp
      pending := by simpa [hskip, hprev] using hs.pending }

theorem State.Inv.boundary {s : State} (hs : s.Inv) : (boundary s).Inv :=
  (boundary_moves s).keeps_inv hs (boundary_cfg s) (boundary_ram s) (boundary_rom s) (boundary_stack s)
    (boundary_skip s) (boundary_prev s)

theorem State.Inv.countCycles {s : State} (n : Nat) (hs : s.Inv) : (countCycles n s).Inv :=
  (countCycles_moves n s).keeps_inv hs (countCycles_cfg n s) (countCycles_ram n s) (countCycles_rom n s)
    (countCycles_stack n s) (countCycles_skip n s) (countCycles_prev n s)

/-- Interrupt entry is reached with SKIP = 0 (R230) and pushes one entry where there is room (R232). -/
theorem State.Inv.interruptEntry {s t : State} (hs : s.Inv) (hskip : s.skip = false)
    (h : interruptEntry s = .ok t) : t.Inv := by
  obtain ⟨hroom, rfl⟩ := interruptEntry_ok.1 h
  exact { hs with depth := hroom, pending := by simp [hskip] }

theorem State.Inv.passOver {s : State} (f : Fetched) (hs : s.Inv) : (passOver f s).Inv :=
  State.Inv.countCycles _ { hs with pending := by simp }

/-- An executed instruction keeps the invariant once PREV names it: a skip it set, it could set. -/
theorem ExecMoves.keeps_inv {i : Instr} {s t : State} {first : Byte} (hm : ExecMoves i s t) (hs : s.Inv)
    (hskip : s.skip = false) (hfirst : firstByteCanSkip first = i.canSkip) :
    ({ t with prev := first } : State).Inv := by
  obtain ⟨hram, hrom⟩ := hs.mem
  refine
    { params := hm.cfg ▸ hs.params
      mem := ⟨?ram, hm.rom ▸ hrom⟩
      depth := ?depth
      count := ?count
      expired := ?expired
      pending := ?pending }
  case ram =>
    obtain h | ⟨a, v, h⟩ := hm.ram
    · exact h ▸ hram
    · exact h ▸ Memory.wf_write 256 s.ram a.toNat v a.isLt hram
  case depth =>
    have hdepth := hs.depth
    show t.stack.length ≤ t.cfg.stackDepth
    rw [hm.cfg]
    obtain h | ⟨v, h⟩ | ⟨hroom, v, h⟩ := hm.stack
    · exact h ▸ hdepth
    · rw [h, List.length_cons] at hdepth
      omega
    · rw [h]
      exact hroom
  case count =>
    obtain ⟨h, -⟩ | ⟨n, h, -⟩ := hm.timer
    · exact h ▸ hs.count
    · exact h ▸ Timer.legal_start n
  case expired =>
    obtain ⟨h, hT⟩ | ⟨n, -, hT⟩ := hm.timer
    · exact h ▸ hT ▸ hs.expired
    · simp [hT]
  case pending =>
    intro hset
    obtain h | h := hm.skip
    · simp [h, hskip] at hset
    · exact hfirst.trans h

/-- An instruction fetched, decoded and executed under no skip keeps the invariant. -/
theorem State.Inv.retire {s u : State} {f : Fetched} {i : Instr} {rest : List Byte} (hs : s.Inv)
    (hskip : s.skip = false) (hd : decode f.bytes = .ok (i, rest))
    (hu : exec i (s.advanced f.bytes.length) = .next u) : (retire f u).Inv := by
  obtain ⟨second, hpair⟩ := decode_cons_ok hd
  have hadv : (s.advanced f.bytes.length).Inv := { hs with }
  exact State.Inv.countCycles _
    ((exec_moves hu).keeps_inv hadv hskip (firstByteCanSkip_of_decodePair hpair))

end Sys2Proof.Machine

section
open Sys2Proof Sys2Proof.Machine

/-- Settles O13, by the three things a step can be (`step_next_cases`): interrupt entry, an instruction
passed over, an instruction executed; each keeps the invariant that the boundary before it keeps. -/
theorem everyStepKeepsTheInvariant : Obligations.EveryStepKeepsTheInvariant := by
  intro s t hs h
  have hb := hs.boundary
  obtain ⟨hacc, u, hu, rfl⟩ | ⟨-, -, f, -, rfl⟩ | ⟨-, hskip, f, i, rest, u, -, hd, hu, rfl⟩ :=
    step_next_cases h
  · obtain ⟨-, -, hskip, -⟩ := acceptInterrupt_iff.1 hacc
    exact (hb.interruptEntry hskip hu).countCycles 1
  · exact hb.passOver f
  · exact hb.retire hskip hd hu

/-- Settles O9, by what a fetch answers (`fetch_ok`, `fetch_error`) and that its fault ends the step. -/
theorem fetchReadsOneOrTwoBytes : Obligations.FetchReadsOneOrTwoBytes := by
  refine ⟨fun s => ⟨fun hnone => ?_, fun first hfirst h1 => ?_, fun first hfirst h2 hnone => ?_,
    fun first second hfirst h2 hsecond => ?_⟩, fun s a => progByte_of_romSize_le,
    fun s x => step_of_fetch_error⟩
  · exact fetch_error.2 (.inl ⟨hnone, rfl⟩)
  · exact fetch_ok.2 ⟨hfirst, .inl ⟨by simp [h1], rfl⟩⟩
  · exact fetch_error.2 (.inr ⟨first, hfirst, h2, hnone, rfl⟩)
  · exact fetch_ok.2 ⟨hfirst, .inr ⟨h2, second, hsecond, rfl⟩⟩

/-- Settles O14, clause by clause: the adopted parameters are legal, nothing is listed, stacked, running
or pending. -/
theorem resetMeetsTheInvariant : Obligations.ResetMeetsTheInvariant where
  params := ⟨rfl, rfl, by decide, by decide⟩
  mem := reset_memories_wf
  depth := Nat.zero_le _
  count := trivial
  expired := fun _ => rfl
  pending := fun hset => by cases hset

end

/-! PROOFS of the family 10_state.md: who writes which piece of state, what a register that few instructions
name can influence, where a meaning faults, and the reset state. -/

namespace Sys2Proof.Machine

/-! ### LI as one next state -/

/-- LI n loads, or leaves ACC where PREV names an LI (R140). -/
theorem exec_li (n : BitVec 4) (s : State) :
    exec (.li n) s = .next { s with acc := if highNibble s.prev = 0x9 then s.acc else n } := by
  simp only [exec, execLi]
  split <;> rfl

/-! ### The writers of every register, of the ports and of pc -/

/-- What executing `i` from `st` to `st'` may have written: each register and bit only by the instructions that
the spec lists for it, and the ports by exactly the writes of the instruction's form. A field's default proves
it where that part is left alone or `i` is listed; a field whose value an instruction computes in more steps
is given where the structure is built. -/
structure ExecWrites (i : Instr) (st st' : State) : Prop where
  acc : st'.acc ≠ st.acc → i.writesAcc = true := by simp [Instr.writesAcc]
  dph : st'.dph ≠ st.dph → i.writesDph = true := by simp [Instr.writesDph]
  dpl : st'.dpl ≠ st.dpl → i.writesDpl = true := by simp [Instr.writesDpl]
  z : st'.z ≠ st.z → i = .taz ∨ i = .xaz := by simp
  w : st'.w ≠ st.w → i = .taw ∨ i = .xaw := by simp
  x : st'.x ≠ st.x → i = .thx ∨ i = .xhx := by simp
  y : st'.y ≠ st.y → i = .tly ∨ i = .xly := by simp
  r : st'.r ≠ st.r → i = .xhr := by simp
  s : st'.s ≠ st.s → i = .xls := by simp
  /-- C, with the carry policy of R120 -/
  c : st'.c ≠ st.c → i.alwaysWritesC = true ∨ (i.policyWritesC = true ∧ st.cfg.carryPolicy = .table) := by
    simp [Instr.alwaysWritesC]
  cs : st'.cs ≠ st.cs → i = .xc := by simp
  timer : st'.t ≠ st.t ∨ st'.timer ≠ st.timer → ∃ pfx n, i = .stm pfx n := by simp
  ie : st'.ie ≠ st.ie → i = .di ∨ i = .ei := by simp
  intf : st'.intf ≠ st.intf → i = .tit := by simp
  flag : st'.flag ≠ st.flag → ∃ b, i = .sfb b ∨ i = .rfb b := by simp
  prev : st'.prev = st.prev := by simp
  resets : st'.resets = st.resets := by simp
  events : st'.events = st.events := by simp
  pc : st'.pc ≠ st.pc → i.writesPc = true := by simp [Instr.writesPc]
  /-- a call pushes the pc it left, a return pops the pc it goes to -/
  stack : st'.stack ≠ st.stack →
    i.usesStack = true ∧ (st'.stack = st.pc :: st.stack ∨ st.stack = st'.pc :: st'.stack) := by simp [Instr.usesStack]
  /-- the history grows by the writes of the form, in order (R48, decision D24) -/
  out : st'.out = st.out ++ portWrites i st := by simp [portWrites]
  latches : ∀ p, latch st' p = lastWritten (portWrites i st) p (latch st p) := by simp [portWrites, latch]
  po : i.writesPort = false → st'.po = st.po := by simp [Instr.writesPort]
  /-- only a port read takes a value from the environment (R47, log 9) -/
  input : i.readsPort = false → st'.inputs = st.inputs ∧ st'.draws = st.draws := by simp [Instr.readsPort]

/-- C moves under `policyCarry` only where the policy is table (R120). -/
theorem policyCarry_ne {s : State} {carry : Bool} (h : policyCarry s carry ≠ s.c) :
    s.cfg.carryPolicy = .table := by
  unfold policyCarry at h
  split at h
  · assumption
  · exact absurd rfl h

theorem exec_writes {i : Instr} {s t : State} (h : exec i s = .next t) : ExecWrites i s t := by
  cases i with
  | nop | spb | rpb | di | ei | tal | tla | taz | taw | tly | thx | xaz | xaw | xly | xhx | xls | xhr
  | cma | cia | rar | ldz | ldi | sfb | rfb | jmp | jcp | jpa | clc | stc | xc
  | ind | ded | fbf | fbt | tab | tc | ttm | tit =>
    cases h
    exact {}
  | inc | dec | das | daa =>
    cases h
    exact { c := fun hc => .inr ⟨rfl, policyCarry_ne hc⟩ }
  | li n =>
    rw [exec_li] at h
    cases h
    exact {}
  | ad =>
    obtain ⟨m, -, h⟩ := andThen_next.1 h
    cases h
    exact { c := fun hc => .inr ⟨rfl, policyCarry_ne hc⟩ }
  | ads | adc | exl | cm | tmb | cmb | lm =>
    obtain ⟨m, -, h⟩ := andThen_next.1 h
    cases h
    exact {}
  | s =>
    obtain ⟨u, hu, h⟩ := andThen_next.1 h
    obtain ⟨-, rfl⟩ := storeDp_ok.1 hu
    cases h
    exact {}
  | inm | dem | smb | rmb =>
    obtain ⟨m, -, h⟩ := andThen_next.1 h
    obtain ⟨u, hu, h⟩ := andThen_next.1 h
    obtain ⟨-, rfl⟩ := storeDp_ok.1 hu
    cases h
    exact {}
  | xm | xmi | xmd =>
    obtain ⟨u, hu, h⟩ := andThen_next.1 h
    obtain ⟨-, rfl⟩ := exchangeCell_ok.1 hu
    cases h
    exact {}
  | ip | ia | tpa | tpb =>
    obtain ⟨vt, hvt, h⟩ := andThen_next.1 h
    obtain ⟨-, rfl⟩ := portRead_ok.1 hvt
    cases h
    exact {}
  | op | oe | seb | reb =>
    obtain ⟨u, hu, h⟩ := andThen_next.1 h
    obtain ⟨-, rfl⟩ := portWrite_ok.1 hu
    cases h
    exact { latches := latch_drivePort s _ _ }
  | ocd imm8 =>
    obtain ⟨u, hu, h⟩ := andThen_next.1 h
    obtain ⟨-, rfl⟩ := portWrite_ok.1 hu
    obtain ⟨w, hw, h⟩ := andThen_next.1 h
    obtain ⟨-, rfl⟩ := portWrite_ok.1 hw
    cases h
    exact { latches := fun p => by
              rw [latch_drivePort, latch_drivePort, ← lastWritten_append]
              rfl }
  | cal | czp =>
    obtain ⟨u, hu, h⟩ := andThen_next.1 h
    obtain ⟨-, rfl⟩ := callTo_ok.1 hu
    cases h
    exact { stack := fun _ => ⟨rfl, .inl rfl⟩ }
  | rt | rts =>
    obtain ⟨u, hu, h⟩ := andThen_next.1 h
    obtain ⟨v, rest, hstack, rfl⟩ := returnFrom_ok.1 hu
    cases h
    exact { stack := fun _ => ⟨rfl, .inr hstack⟩ }
  | ci | cli | stm =>
    obtain ⟨-, -, h⟩ := andThen_next.1 h
    cases h
    exact {}
  | unassigned1C | unassigned45 => cases h

/-- An instruction that R48 does not list has no port write in its form. -/
theorem portWrites_of_not_writesPort {i : Instr} {s : State} (hi : i.writesPort = false) :
    portWrites i s = [] := by
  cases i with
  | op | oe | ocd | seb | reb => cases hi
  | _ => rfl

/-! ### Changing the registers that few instructions name -/

/-- A change of each of the nine registers CS, R, S, Z, W, X, Y, IE and PREV; the default changes none. -/
structure SideChange where
  cs : Bool → Bool := id
  r : Nibble → Nibble := id
  s : Nibble → Nibble := id
  z : Nibble → Nibble := id
  w : Nibble → Nibble := id
  x : Nibble → Nibble := id
  y : Nibble → Nibble := id
  ie : Bool → Bool := id
  prev : Byte → Byte := id

/-- The state with the nine registers changed, and nothing else. -/
def SideChange.apply (g : SideChange) (s : State) : State :=
  { s with
    cs := g.cs s.cs, r := g.r s.r, s := g.s s.s, z := g.z s.z, w := g.w s.w, x := g.x s.x, y := g.y s.y
    ie := g.ie s.ie, prev := g.prev s.prev }

/-- The change leaves alone every register that the instruction names (R11, R12, R17, R19, R24). -/
structure SideChange.Spares (g : SideChange) (i : Instr) : Prop where
  cs : i = .xc → g.cs = id := by simp
  r : i = .xhr → g.r = id := by simp
  s : i = .xls → g.s = id := by simp
  z : i = .taz ∨ i = .xaz → g.z = id := by simp
  w : i = .taw ∨ i = .xaw → g.w = id := by simp
  x : i = .thx ∨ i = .xhx → g.x = id := by simp
  y : i = .tly ∨ i = .xly → g.y = id := by simp
  ie : i = .di ∨ i = .ei → g.ie = id := by simp
  prev : (∃ n, i = .li n) → g.prev = id := by simp

/-! ### The operations do not see the nine registers, and carry a change of them along -/

/-- What follows an operation that does not see the change. -/
theorem andThen_unseen {α : Type} {f : State → State} {x : Except Fault α} {k k' : α → Result}
    (hk : ∀ a, k' a = mapNext f (k a)) : andThen x k' = mapNext f (andThen x k) := by
  cases x with
  | ok a => exact hk a
  | error _ => rfl

/-- What follows an operation that carries the change along. -/
theorem andThen_carried {α β : Type} {f : State → State} {x : Except Fault α} {x' : Except Fault β}
    {φ : α → β} {k : α → Result} {k' : β → Result} (hx : x' = x.map φ)
    (hk : ∀ a, k' (φ a) = mapNext f (k a)) : andThen x' k' = mapNext f (andThen x k) := by
  subst hx
  cases x with
  | ok a => exact hk a
  | error _ => rfl

section
variable (g : SideChange) (s : State)

theorem storeDp_side (v : Nibble) : storeDp (g.apply s) v = (storeDp s v).map g.apply := by
  by_cases h : ramMapped s.cfg (dp s) = true
  · rw [storeDp_ok.2 ⟨h, rfl⟩]
    exact storeDp_ok.2 ⟨h, rfl⟩
  · have hf : ramMapped s.cfg (dp s) = false := by simpa using h
    rw [storeDp_error.2 ⟨hf, rfl⟩]
    exact storeDp_error.2 ⟨hf, rfl⟩

theorem exchangeCell_side (x : BitVec 2) : exchangeCell x (g.apply s) = (exchangeCell x s).map g.apply := by
  by_cases h : ramMapped s.cfg (dp s) = true
  · rw [exchangeCell_ok.2 ⟨h, rfl⟩]
    exact exchangeCell_ok.2 ⟨h, rfl⟩
  · have hf : ramMapped s.cfg (dp s) = false := by simpa using h
    rw [exchangeCell_error.2 ⟨hf, rfl⟩]
    exact exchangeCell_error.2 ⟨hf, rfl⟩

theorem portWrite_side (p v : Nibble) : portWrite (g.apply s) p v = (portWrite s p v).map g.apply := by
  cases h : s.cfg.portMap.writable.contains p
  · rw [portWrite_error.2 ⟨h, rfl⟩]
    exact portWrite_error.2 ⟨h, rfl⟩
  · rw [portWrite_ok.2 ⟨h, rfl⟩]
    exact portWrite_ok.2 ⟨h, rfl⟩

theorem drawn_side : (g.apply s).drawn = g.apply s.drawn := by
  cases h : s.inputs <;> simp [State.drawn, SideChange.apply, h]

theorem portRead_side (p : Nibble) :
    portRead (g.apply s) p = (portRead s p).map (fun vt => (vt.1, g.apply vt.2)) := by
  cases h : s.cfg.portMap.readable.contains p
  · rw [portRead_error.2 ⟨h, rfl⟩]
    exact portRead_error.2 ⟨h, rfl⟩
  · rw [portRead_ok.2 ⟨h, rfl⟩]
    exact portRead_ok.2 ⟨h, by rw [drawn_side]; rfl⟩

theorem callTo_side (target : PAddr) : callTo (g.apply s) target = (callTo s target).map g.apply := by
  by_cases h : s.stack.length < s.cfg.stackDepth
  · rw [callTo_ok.2 ⟨h, rfl⟩]
    exact callTo_ok.2 ⟨h, rfl⟩
  · rw [callTo_error.2 ⟨Nat.le_of_not_lt h, rfl⟩]
    exact callTo_error.2 ⟨Nat.le_of_not_lt h, rfl⟩

theorem returnFrom_side : returnFrom (g.apply s) = (returnFrom s).map g.apply := by
  cases h : s.stack with
  | nil =>
    rw [returnFrom_error.2 ⟨h, rfl⟩]
    exact returnFrom_error.2 ⟨h, rfl⟩
  | cons v rest =>
    rw [returnFrom_ok.2 ⟨v, rest, h, rfl⟩]
    exact returnFrom_ok.2 ⟨v, rest, h, rfl⟩

end

/-- An instruction that names none of the changed registers answers as before, with the change. -/
theorem exec_side {g : SideChange} {i : Instr} (hg : g.Spares i) (s : State) :
    exec i (g.apply s) = mapNext g.apply (exec i s) := by
  cases i with
  | nop | spb | rpb | tal | tla | inc | dec | das | daa | cma | cia | rar | ldz | ldi | ind | ded
  | fbf | fbt | tab | sfb | rfb | jmp | jcp | jpa | clc | stc | tc | ttm | tit
  | unassigned1C | unassigned45 => rfl
  | xc => simp [exec, execXc, mapNext, SideChange.apply, hg.cs rfl]
  | xhr => simp [exec, execXhr, mapNext, SideChange.apply, hg.r rfl]
  | xls => simp [exec, execXls, mapNext, SideChange.apply, hg.s rfl]
  | taz => simp [exec, execTaz, mapNext, SideChange.apply, hg.z (.inl rfl)]
  | xaz => simp [exec, execXaz, mapNext, SideChange.apply, hg.z (.inr rfl)]
  | taw => simp [exec, execTaw, mapNext, SideChange.apply, hg.w (.inl rfl)]
  | xaw => simp [exec, execXaw, mapNext, SideChange.apply, hg.w (.inr rfl)]
  | thx => simp [exec, execThx, mapNext, SideChange.apply, hg.x (.inl rfl)]
  | xhx => simp [exec, execXhx, mapNext, SideChange.apply, hg.x (.inr rfl)]
  | tly => simp [exec, execTly, mapNext, SideChange.apply, hg.y (.inl rfl)]
  | xly => simp [exec, execXly, mapNext, SideChange.apply, hg.y (.inr rfl)]
  | di => simp [exec, execDi, mapNext, SideChange.apply, hg.ie (.inl rfl)]
  | ei => simp [exec, execEi, mapNext, SideChange.apply, hg.ie (.inr rfl)]
  | li n => simp [exec_li, mapNext, SideChange.apply, hg.prev ⟨n, rfl⟩]
  | ad | ads | adc | exl | cm | tmb | cmb | lm | ci | cli | stm => exact andThen_unseen fun _ => rfl
  | s => exact andThen_carried (storeDp_side g s _) fun _ => rfl
  | inm | dem | smb | rmb =>
    exact andThen_unseen fun _ => andThen_carried (storeDp_side g s _) fun _ => rfl
  | xm | xmi | xmd => exact andThen_carried (exchangeCell_side g s _) fun _ => rfl
  | op | oe | seb | reb => exact andThen_carried (portWrite_side g s _ _) fun _ => rfl
  | ocd =>
    exact andThen_carried (portWrite_side g s _ _) fun u =>
      andThen_carried (portWrite_side g u _ _) fun _ => rfl
  | ip | ia | tpa | tpb => exact andThen_carried (portRead_side g s _) fun _ => rfl
  | cal | czp => exact andThen_carried (callTo_side g s _) fun _ => rfl
  | rt | rts => exact andThen_carried (returnFrom_side g s) fun _ => rfl

/-! ### Where a meaning faults -/

/-- An instruction that R26 lists faults only at a DP outside RAM_MAP (R225). -/
theorem exec_accessesRam_fault {i : Instr} {s : State} {f : Fault} (hi : i.accessesRam = true)
    (h : exec i s = .fault f) : ramMapped s.cfg (dp s) = false ∧ f = .unmappedRam (dp s) := by
  cases i with
  | ad | ads | adc | exl | cm | tmb | cmb | lm =>
    obtain hload | ⟨m, -, h⟩ := andThen_fault.1 h
    · exact loadDp_error.1 hload
    · cases h
  | s =>
    obtain hstore | ⟨u, -, h⟩ := andThen_fault.1 h
    · exact storeDp_error.1 hstore
    · cases h
  | inm | dem | smb | rmb =>
    obtain hload | ⟨m, -, h⟩ := andThen_fault.1 h
    · exact loadDp_error.1 hload
    obtain hstore | ⟨u, -, h⟩ := andThen_fault.1 h
    · exact storeDp_error.1 hstore
    · cases h
  | xm | xmi | xmd =>
    obtain hswap | ⟨u, -, h⟩ := andThen_fault.1 h
    · exact exchangeCell_error.1 hswap
    · cases h
  | _ => cases hi

/-- A port read faults only on the port its form names, where that one is not readable (R47, R225). -/
theorem exec_readsPort_fault {i : Instr} {s : State} {f : Fault} (hi : i.readsPort = true)
    (h : exec i s = .fault f) :
    ∃ p, f = .unmappedPort p ∧ portReadBy i s = some p ∧ s.cfg.portMap.readable.contains p = false := by
  cases i with
  | ip | ia | tpa | tpb =>
    obtain hread | ⟨vt, -, h⟩ := andThen_fault.1 h
    · obtain ⟨hp, rfl⟩ := portRead_error.1 hread
      exact ⟨_, rfl, rfl, hp⟩
    · cases h
  | _ => cases hi

/-- A port write faults on the first port of its form that is not writable (R48, R225). -/
theorem exec_writesPort_fault {i : Instr} {s : State} {f : Fault} (hi : i.writesPort = true)
    (h : exec i s = .fault f) :
    ∃ p done v later, f = .unmappedPort p ∧ portWrites i s = done ++ (p, v) :: later ∧
      s.cfg.portMap.writable.contains p = false ∧
      ∀ w ∈ done, s.cfg.portMap.writable.contains w.1 = true := by
  cases i with
  | op | oe | seb | reb =>
    obtain hwrite | ⟨u, -, h⟩ := andThen_fault.1 h
    · obtain ⟨hp, rfl⟩ := portWrite_error.1 hwrite
      exact ⟨_, [], _, [], rfl, rfl, hp, by simp⟩
    · cases h
  | ocd imm8 =>
    obtain hwrite | ⟨u, hu, h⟩ := andThen_fault.1 h
    · obtain ⟨hp, rfl⟩ := portWrite_error.1 hwrite
      exact ⟨_, [], _, [_], rfl, rfl, hp, by simp⟩
    obtain ⟨hc, rfl⟩ := portWrite_ok.1 hu
    obtain hwrite | ⟨w, -, h⟩ := andThen_fault.1 h
    · obtain ⟨hp, rfl⟩ := portWrite_error.1 hwrite
      exact ⟨_, [_], _, [], rfl, rfl, hp, List.forall_mem_singleton.2 hc⟩
    · cases h
  | _ => cases hi

/-- CI, CLI and STM fault only in the check of their second byte. -/
theorem andThen_checkPrefix_fault {s : State} {good : Bool} {first second : Byte} {t : State} {f : Fault}
    (h : andThen (checkPrefix s good first second) (fun _ => .next t) = .fault f) :
    f = .reservedOperand first second ∧ good = false ∧ s.cfg.reservedOperand = .fault := by
  obtain hcheck | ⟨-, -, h⟩ := andThen_fault.1 h
  · obtain ⟨hcfg, hgood, rfl⟩ := checkPrefix_error.1 hcheck
    exact ⟨rfl, hgood, hcfg⟩
  · cases h

/-! ### The reset state -/

/-- The latches of ports 2 to 8 are 0 at reset (R29, R250). -/
theorem latch_reset : ∀ p : Nibble, 2 ≤ p.toNat → p.toNat ≤ 8 → latch State.reset p = 0 := by
  decide

/-- No cell is listed after a reset, so that each holds its draw (R251, log 5). -/
theorem cell_resetEvent (s : State) (a : Byte) : cell (resetEvent s) a = Config.ramDraw (s.resets + 1) a :=
  rfl

/-! ### A pending skip -/

/-- No interrupt is accepted under a skip (R230, decision D6). -/
theorem acceptInterrupt_of_skip {s : State} (h : s.skip = true) : acceptInterrupt s = false := by
  simp [acceptInterrupt, h]

/-- A step under a pending skip passes over the instruction that the boundary leaves at pc (R74). -/
theorem step_of_skip {s : State} {f : Fetched} (hskip : s.skip = true) (hf : fetch (boundary s) = .ok f) :
    step s = .next (passOver f (boundary s)) := by
  have hb : (boundary s).skip = true := (boundary_skip s).trans hskip
  simp [step, acceptInterrupt_of_skip hb, fetchAndExecute, hf, hskip]

end Sys2Proof.Machine

section
open Sys2Proof Sys2Proof.Machine

/-- Settles O15, by the three things a step can be (`step_next_cases`): interrupt entry and an instruction
passed over write neither, and an executed instruction none of its own (`exec_moves`). -/
theorem noStepWritesProgramMemory : Obligations.NoStepWritesProgramMemory := by
  intro s t h
  obtain ⟨-, u, hu, rfl⟩ | ⟨-, -, f, -, rfl⟩ | ⟨-, -, f, i, rest, u, -, -, hu, rfl⟩ := step_next_cases h
  · obtain ⟨-, rfl⟩ := interruptEntry_ok.1 hu
    simp
  · simp
  · have hm := exec_moves hu
    simp [hm.rom, hm.cfg]

/-- Settles O17, as the clause about C of `exec_writes`. -/
theorem onlyListedInstructionsWriteCarry : Obligations.OnlyListedInstructionsWriteCarry :=
  fun _ _ _ h => (exec_writes h).c

/-- Settles O18, register by register from `exec_writes`; ROM and the parameters from `exec_moves`. -/
theorem registersHaveTheirOwnWriters : Obligations.RegistersHaveTheirOwnWriters := by
  intro i s t h
  have hw := exec_writes h
  have hm := exec_moves h
  exact ⟨hw.acc, hw.dph, hw.dpl, hw.z, hw.w, hw.x, hw.y, hw.r, hw.s, hw.cs, hw.timer, hw.ie, hw.intf, hw.flag,
    hw.prev, hm.rom, hm.cfg, hw.resets, hw.events⟩

/-- Settles O20, from the port clauses of `exec_writes`: a form without writes leaves the history. -/
theorem portsChangeByPortInstructionsOnly : Obligations.PortsChangeByPortInstructionsOnly := by
  intro i s t h
  have hw := exec_writes h
  refine ⟨hw.out, hw.latches, fun hi => ⟨?_, hw.po hi⟩, hw.input⟩
  rw [hw.out, portWrites_of_not_writesPort hi, List.append_nil]

/-- Settles O21, as the clauses about pc and the stack of `exec_writes`. -/
theorem onlyTransfersWritePcAndStack : Obligations.OnlyTransfersWritePcAndStack :=
  fun _ _ _ h => ⟨(exec_writes h).pc, (exec_writes h).stack⟩

/-- Settles O23: each clause is `exec_side` for the change that sets one register and keeps the others. -/
theorem sideRegistersInfluenceOnlyTheirInstructions :
    Obligations.SideRegistersInfluenceOnlyTheirInstructions := by
  intro i s
  refine ⟨fun v hi => ?cs, fun v hi => ?r, fun v hi => ?s, fun v hi hi' => ?z, fun v hi hi' => ?w,
    fun v hi hi' => ?x, fun v hi hi' => ?y, fun v hi hi' => ?ie, fun v hi => ?prev⟩
  case cs => exact exec_side (g := { cs := fun _ => v }) { cs := by simp [hi] } s
  case r => exact exec_side (g := { r := fun _ => v }) { r := by simp [hi] } s
  case s => exact exec_side (g := { s := fun _ => v }) { s := by simp [hi] } s
  case z => exact exec_side (g := { z := fun _ => v }) { z := by simp [hi, hi'] } s
  case w => exact exec_side (g := { w := fun _ => v }) { w := by simp [hi, hi'] } s
  case x => exact exec_side (g := { x := fun _ => v }) { x := by simp [hi, hi'] } s
  case y => exact exec_side (g := { y := fun _ => v }) { y := by simp [hi, hi'] } s
  case ie => exact exec_side (g := { ie := fun _ => v }) { ie := by simp [hi, hi'] } s
  case prev => exact exec_side (g := { prev := fun _ => v }) { prev := by simp [hi] } s

/-- Settles O26, by the operation of the form that can raise: the cell at DP, a port, the stack, the check
of the second byte, or none. -/
theorem faultsOnlyWhereRulesRaise : Obligations.FaultsOnlyWhereRulesRaise := by
  intro i s f h
  cases i with
  | ad | ads | adc | exl | cm | s | inm | dem | tmb | cmb | smb | rmb | xm | xmi | xmd | lm =>
    obtain ⟨hmap, rfl⟩ := exec_accessesRam_fault rfl h
    exact .inr (.inr (.inr (.inr (.inl ⟨rfl, hmap, rfl⟩))))
  | ip | ia | tpa | tpb =>
    exact .inr (.inr (.inr (.inr (.inr (.inl (exec_readsPort_fault rfl h))))))
  | op | oe | ocd | seb | reb =>
    exact .inr (.inr (.inr (.inr (.inr (.inr (exec_writesPort_fault rfl h))))))
  | cal | czp =>
    obtain hcall | ⟨u, -, h⟩ := andThen_fault.1 h
    · obtain ⟨hfull, rfl⟩ := callTo_error.1 hcall
      exact .inr (.inr (.inl ⟨rfl, hfull, by simp⟩))
    · cases h
  | rt | rts =>
    obtain hret | ⟨u, -, h⟩ := andThen_fault.1 h
    · obtain ⟨hempty, rfl⟩ := returnFrom_error.1 hret
      exact .inr (.inr (.inr (.inl ⟨rfl, hempty, by simp⟩)))
    · cases h
  | ci | cli | stm =>
    obtain ⟨rfl, hill, hcfg⟩ := andThen_checkPrefix_fault h
    exact .inr (.inl ⟨_, _, rfl, hill, rfl, hcfg⟩)
  | unassigned1C =>
    cases h
    exact .inl ⟨_, rfl, .inl ⟨rfl, rfl⟩⟩
  | unassigned45 =>
    cases h
    exact .inl ⟨_, rfl, .inr ⟨rfl, rfl⟩⟩
  | li n =>
    rw [exec_li] at h
    cases h
  | _ => cases h

/-- Settles O30, clause by clause: but for the latches and the cells, reset puts a constant or keeps a
field. -/
theorem resetPutsTheMachineInItsResetState : Obligations.ResetPutsTheMachineInItsResetState :=
  fun s => ⟨rfl, rfl, rfl, rfl, rfl, rfl, rfl, latch_reset, cell_resetEvent s, rfl, rfl, rfl, rfl⟩

/-- Settles O32: RT and RTS are `returnFrom`, and the step after RTS is `step_of_skip`. -/
theorem returnsPopTheStack : Obligations.ReturnsPopTheStack := by
  refine ⟨rfl, rfl, fun u f hskip => ⟨?accept, fun hf => ?passed⟩, fun s v rest hstack => ?popped,
    fun s hempty => ?underflow⟩
  case accept => exact acceptInterrupt_of_skip ((boundary_skip u).trans hskip)
  case passed => exact ⟨_, step_of_skip hskip hf, by simp, by simp⟩
  case popped =>
    have hret := returnFrom_ok.2 ⟨v, rest, hstack, rfl⟩
    simp [exec, execRt, execRts, hret]
  case underflow =>
    have hret := returnFrom_error.2 ⟨hempty, rfl⟩
    simp [exec, execRt, execRts, hret]

end

/-! PROOFS of the family 20_memory.md: which cell a store reaches, what a port write does to its latch and to
the history, what a port read takes from the environment, and which faults the adopted maps leave. -/

namespace Sys2Proof.Machine

/-! ### Stores (R43, R44) -/

/-- RAM after an instruction: as it was, or with the cell at DP stored by an instruction that stores. -/
theorem exec_ram {i : Instr} {s t : State} (h : exec i s = .next t) :
    t.ram = s.ram ∨ (i.storesRam = true ∧ ∃ v, t.ram = (s.storeCell (dp s) v).ram) := by
  cases i with
  | s =>
    obtain ⟨u, hu, h⟩ := andThen_next.1 h
    obtain ⟨-, rfl⟩ := storeDp_ok.1 hu
    cases h
    exact .inr ⟨rfl, _, rfl⟩
  | inm | dem | smb | rmb =>
    obtain ⟨m, -, h⟩ := andThen_next.1 h
    obtain ⟨u, hu, h⟩ := andThen_next.1 h
    obtain ⟨-, rfl⟩ := storeDp_ok.1 hu
    cases h
    exact .inr ⟨rfl, _, rfl⟩
  | xm | xmi | xmd =>
    obtain ⟨u, hu, h⟩ := andThen_next.1 h
    obtain ⟨-, rfl⟩ := exchangeCell_ok.1 hu
    cases h
    exact .inr ⟨rfl, _, rfl⟩
  | ad | ads | adc | exl | cm | tmb | cmb | lm | ci | cli | stm =>
    obtain ⟨m, -, h⟩ := andThen_next.1 h
    cases h
    exact .inl rfl
  | ip | ia | tpa | tpb =>
    obtain ⟨vt, hvt, h⟩ := andThen_next.1 h
    obtain ⟨-, rfl⟩ := portRead_ok.1 hvt
    cases h
    exact .inl s.drawn_ram
  | op | oe | seb | reb =>
    obtain ⟨u, hu, h⟩ := andThen_next.1 h
    obtain ⟨-, rfl⟩ := portWrite_ok.1 hu
    cases h
    exact .inl rfl
  | ocd =>
    obtain ⟨u, hu, h⟩ := andThen_next.1 h
    obtain ⟨-, rfl⟩ := portWrite_ok.1 hu
    obtain ⟨w, hw, h⟩ := andThen_next.1 h
    obtain ⟨-, rfl⟩ := portWrite_ok.1 hw
    cases h
    exact .inl rfl
  | cal | czp =>
    obtain ⟨u, hu, h⟩ := andThen_next.1 h
    obtain ⟨-, rfl⟩ := callTo_ok.1 hu
    cases h
    exact .inl rfl
  | rt | rts =>
    obtain ⟨u, hu, h⟩ := andThen_next.1 h
    obtain ⟨v, rest, -, rfl⟩ := returnFrom_ok.1 hu
    cases h
    exact .inl rfl
  | li n =>
    rw [exec_li] at h
    cases h
    exact .inl rfl
  | unassigned1C | unassigned45 => cases h
  | _ =>
    cases h
    exact .inl rfl

/-! ### The output history along a run (R48) -/

/-- A step only appends to the history: interrupt entry and a skip leave it, and an executed instruction
appends the writes of its form. -/
theorem step_out_grows {s t : State} (h : step s = .next t) : s.out <+: t.out := by
  obtain ⟨-, u, hu, rfl⟩ | ⟨-, -, f, -, rfl⟩ | ⟨-, -, f, i, rest, u, -, -, hu, rfl⟩ := step_next_cases h
  · obtain ⟨-, rfl⟩ := interruptEntry_ok.1 hu
    simp
  · simp
  · simp [(exec_writes hu).out]

theorem run_out_grows {k : Nat} {s t : State} (h : Host.Core.run Sys2Proof.core k s = .next t) :
    s.out <+: t.out := by
  induction k generalizing s with
  | zero =>
    rw [core_run_zero] at h
    cases h
    exact ⟨[], List.append_nil _⟩
  | succ k ih =>
    obtain ⟨u, hstep, hrun⟩ := core_run_succ.1 h
    exact (step_out_grows hstep).trans (ih hrun)

/-! ### The adopted maps (decisions D7, D9) -/

/-- Every address of a byte lies in the adopted RAM_MAP. -/
theorem ramMapped_adopted (a : Byte) : ramMapped adoptedConfig a = true := by
  simp [ramMapped, adoptedConfig, a.isLt]

theorem adopted_not_writable :
    ∀ p : Nibble, adoptedPortMap.writable.contains p = false → p.toNat < 2 ∨ 8 < p.toNat := by decide

theorem adopted_not_readable :
    ∀ p : Nibble, adoptedPortMap.readable.contains p = false → 3 < p.toNat := by decide

/-- Of the ports a form writes, OP's is the one DPL names; every other is port C, D or E. -/
theorem mem_portWrites {i : Instr} {s : State} {p v : Nibble} (h : (p, v) ∈ portWrites i s) :
    (i = .op ∧ p = s.dpl) ∨ p ∈ [s.cfg.portMap.portC, s.cfg.portMap.portD, s.cfg.portMap.portE] := by
  cases i with
  | op =>
    cases List.mem_singleton.1 h
    exact .inl ⟨rfl, rfl⟩
  | ocd =>
    obtain h | h := List.mem_pair.1 h
    · cases h
      simp
    · cases h
      simp
  | oe | seb | reb =>
    cases List.mem_singleton.1 h
    simp
  | _ => cases h

/-- IP and TPB read the port DPL names; every other port read is of port A. -/
theorem portReadBy_some {i : Instr} {s : State} {p : Nibble} (h : portReadBy i s = some p) :
    ((i = .ip ∨ ∃ b, i = .tpb b) ∧ p = s.dpl) ∨ p = s.cfg.portMap.portA := by
  cases i with
  | ip =>
    cases h
    exact .inl ⟨.inl rfl, rfl⟩
  | tpb b =>
    cases h
    exact .inl ⟨.inr ⟨b, rfl⟩, rfl⟩
  | ia | tpa =>
    cases h
    exact .inr rfl
  | _ => cases h

/-! ### One port write (R48, R225) -/

section
variable {s : State} {p : Nibble}

/-- A write to a port that is writable goes on with the latch and the history driven. -/
theorem andThen_portWrite_writable (hp : s.cfg.portMap.writable.contains p = true) (v : Nibble)
    (k : State → Result) : andThen (portWrite s p v) k = k (s.drivePort p v) := by
  rw [portWrite_ok.2 ⟨hp, rfl⟩, andThen_ok]

/-- A write to a port that is not writable ends the step. -/
theorem andThen_portWrite_unwritable (hp : s.cfg.portMap.writable.contains p = false) (v : Nibble)
    (k : State → Result) : andThen (portWrite s p v) k = .fault (.unmappedPort p) := by
  rw [portWrite_error.2 ⟨hp, rfl⟩, andThen_error]

/-- An instruction that is one port write: its latch, the other latches, the history, and nothing else. -/
theorem portWrite_next (hp : s.cfg.portMap.writable.contains p = true) (v : Nibble) :
    ∃ t, andThen (portWrite s p v) .next = .next t ∧
      t = { s with po := t.po, out := s.out ++ [(p, v)] } ∧
      latch t p = v ∧ ∀ q, q ≠ p → latch t q = latch s q :=
  ⟨s.drivePort p v, andThen_portWrite_writable hp v .next, rfl, latch_drivePort_same s p v,
    fun q => latch_drivePort_other s p q v⟩

/-- The same with the bits of the written value, where they are known from the latch (SEB, REB). -/
theorem portWrite_next_bits (hp : s.cfg.portMap.writable.contains p = true) {v : Nibble}
    {bit : Nat → Bool} (hv : ∀ j < 4, v.getLsbD j = bit j) :
    ∃ t, andThen (portWrite s p v) .next = .next t ∧ t = { s with po := t.po, out := t.out } ∧
      t.out = s.out ++ [(p, latch t p)] ∧ (∀ q, q ≠ p → latch t q = latch s q) ∧
      ∀ j < 4, (latch t p).getLsbD j = bit j := by
  obtain ⟨t, hnext, ht, rfl, hother⟩ := portWrite_next hp v
  have hout : t.out = s.out ++ [(p, latch t p)] := congrArg State.out ht
  exact ⟨t, hnext, hout ▸ ht, hout, hother, hv⟩

end

/-! ### OCD's two writes (R154, decision D10) -/

theorem lowNibble_eq_ofNat (v : Byte) : lowNibble v = BitVec.ofNat 4 v.toNat := by
  apply BitVec.eq_of_toNat_eq
  rw [lowNibble_toNat, BitVec.toNat_ofNat]

theorem highNibble_eq_ofNat (v : Byte) : highNibble v = BitVec.ofNat 4 (v.toNat / 16) := by
  have := v.isLt
  apply BitVec.eq_of_toNat_eq
  rw [highNibble_toNat, BitVec.toNat_ofNat]
  omega

/-- Port C with the low nibble, then port D with the high one; where both are one port, port D's write is
the last. -/
theorem exec_ocd_next {s : State} {imm8 : BitVec 8}
    (hc : s.cfg.portMap.writable.contains s.cfg.portMap.portC = true)
    (hd : s.cfg.portMap.writable.contains s.cfg.portMap.portD = true) :
    exec (.ocd imm8) s = .next
      ((s.drivePort s.cfg.portMap.portC (lowNibble imm8)).drivePort s.cfg.portMap.portD (highNibble imm8)) :=
  (andThen_portWrite_writable hc _ _).trans
    (andThen_portWrite_writable (s := s.drivePort s.cfg.portMap.portC (lowNibble imm8)) hd _ _)

/-! ### One port read (R47, R225) -/

section
variable {s t : State} {p v : Nibble}

/-- The next queued value is the one a read of a readable port takes (log 9). -/
theorem portRead_queued {rest : List Nibble} (hin : s.inputs = v :: rest)
    (hp : s.cfg.portMap.readable.contains p = true) : portRead s p = .ok (v, { s with inputs := rest }) :=
  portRead_ok.2 ⟨hp, by simp [draw, State.drawn, hin]⟩

/-- Where nothing is queued, the read takes the next free value (log 9). -/
theorem portRead_free (hin : s.inputs = []) (hp : s.cfg.portMap.readable.contains p = true) :
    portRead s p = .ok (Config.portDraw s.draws, { s with draws := s.draws + 1 }) :=
  portRead_ok.2 ⟨hp, by simp [draw, State.drawn, hin]⟩

/-- IP and TPB on the value that the port DPL names gives. -/
theorem exec_ip_tpb_of_read (h : portRead s s.dpl = .ok (v, t)) (b : BitVec 2) :
    exec .ip s = .next { t with acc := v } ∧
    exec (.tpb b) s = .next { t with skip := v.getLsbD b.toNat } := by
  simp [exec, execIp, execTpb, h, bitOf]

/-- IA and TPA on the value that port A gives. -/
theorem exec_ia_tpa_of_read (h : portRead s s.cfg.portMap.portA = .ok (v, t)) (b : BitVec 2) :
    exec .ia s = .next { t with acc := v } ∧
    exec (.tpa b) s = .next { t with skip := v.getLsbD b.toNat } := by
  simp [exec, execIa, execTpa, h, bitOf]

/-- IP and TPB where the port DPL names is not readable. -/
theorem exec_ip_tpb_of_unreadable (hp : s.cfg.portMap.readable.contains s.dpl = false) (b : BitVec 2) :
    exec .ip s = .fault (.unmappedPort s.dpl) ∧ exec (.tpb b) s = .fault (.unmappedPort s.dpl) := by
  simp [exec, execIp, execTpb, portRead_error.2 ⟨hp, rfl⟩]

/-- IA and TPA where port A is not readable. -/
theorem exec_ia_tpa_of_unreadable (hp : s.cfg.portMap.readable.contains s.cfg.portMap.portA = false)
    (b : BitVec 2) :
    exec .ia s = .fault (.unmappedPort s.cfg.portMap.portA) ∧
    exec (.tpa b) s = .fault (.unmappedPort s.cfg.portMap.portA) := by
  simp [exec, execIa, execTpa, portRead_error.2 ⟨hp, rfl⟩]

end

end Sys2Proof.Machine

section
open Sys2Proof Sys2Proof.Machine

/-- Settles O19: RAM is as it was or has the cell at DP stored (`exec_ram`), and a store leaves what every
other address reads as. -/
theorem storesGoToTheCellAtDp : Obligations.StoresGoToTheCellAtDp := by
  intro i s t h
  have hresets : t.resets = s.resets := (exec_writes h).resets
  obtain hram | ⟨hstores, v, hram⟩ := exec_ram h
  · exact ⟨fun a _ => cell_congr s t a hram hresets, fun _ => hram⟩
  · refine ⟨fun a ha => ?_, fun hnot => by simp [hstores] at hnot⟩
    calc cell t a = cell (s.storeCell (dp s) v) a := cell_congr _ t a hram hresets
      _ = cell s a := cell_storeCell_other s (dp s) a v ha

/-- Settles O24, by induction on the number of steps (`run_out_grows`). -/
theorem outputHistoryOnlyGrows : Obligations.OutputHistoryOnlyGrows := by
  intro k s t h
  obtain ⟨l, hl⟩ := run_out_grows h
  exact ⟨l, hl.symm⟩

/-- Settles O27, from the faults the rules allow (O26): every address is mapped, ports A, C, D and E are
readable or writable as their instructions need, and DPL names the port of OP, IP and TPB. -/
theorem adoptedMapsConfineFaults : Obligations.AdoptedMapsConfineFaults := by
  intro i s x hcfg h
  have hports : s.cfg.portMap = adoptedPortMap := congrArg Config.portMap hcfg
  obtain ⟨a, rfl, -⟩ | ⟨a, b, rfl, -⟩ | ⟨rfl, -⟩ | ⟨rfl, -⟩ | ⟨rfl, hmap, -⟩ | ⟨p, rfl, hread, hp⟩ |
    ⟨p, done, v, later, rfl, hwrites, hp, -⟩ := faultsOnlyWhereRulesRaise i s x h
  · simp
  · simp
  · simp
  · simp
  · rw [hcfg, ramMapped_adopted] at hmap
    cases hmap
  · rw [hports] at hp
    refine ⟨by simp, fun q hq => ?_⟩
    cases hq
    obtain ⟨hi, hdpl⟩ | hA := portReadBy_some hread
    · exact ⟨hdpl, .inr ⟨hi, adopted_not_readable p hp⟩⟩
    · rw [hA, hports] at hp
      cases hp
  · rw [hports] at hp
    refine ⟨by simp, fun q hq => ?_⟩
    cases hq
    have hmem : (p, v) ∈ portWrites i s := by simp [hwrites]
    obtain ⟨hi, hdpl⟩ | hCDE := mem_portWrites hmem
    · exact ⟨hdpl, .inl ⟨hi, adopted_not_writable p hp⟩⟩
    · rw [hports] at hCDE
      fin_cases hCDE <;> cases hp

/-- Settles O44: OP and OE are one port write (`portWrite_next`), OCD is two (`exec_ocd_next`). -/
theorem outputInstructionsWriteTheirPorts : Obligations.OutputInstructionsWriteTheirPorts := by
  intro s
  refine ⟨fun hp => portWrite_next hp s.acc, fun hp => andThen_portWrite_unwritable hp _ _, ?oe, ?ocd⟩
  case oe =>
    rintro _ rfl
    exact ⟨fun hp => portWrite_next hp s.acc, fun hp => andThen_portWrite_unwritable hp _ _⟩
  case ocd =>
    intro imm8 pc pd lo hi hpc hpd hlo hhi
    rw [← lowNibble_eq_ofNat] at hlo
    rw [← highNibble_eq_ofNat] at hhi
    subst hpc hpd hlo hhi
    refine ⟨fun hc hd => ⟨_, exec_ocd_next hc hd, ?frame, ?latchD, fun hcd => ?latchC, fun q hqc hqd => ?other⟩,
      fun hc => andThen_portWrite_unwritable hc _ _, fun hc hd => ?faultD⟩
    case frame => simp [State.drivePort]
    case latchD => exact latch_drivePort_same _ _ _
    case latchC => rw [latch_drivePort_other _ _ _ _ hcd, latch_drivePort_same]
    case other => rw [latch_drivePort_other _ _ _ _ hqd, latch_drivePort_other _ _ _ _ hqc]
    case faultD =>
      exact (andThen_portWrite_writable hc _ _).trans
        (andThen_portWrite_unwritable (s := s.drivePort s.cfg.portMap.portC (lowNibble imm8)) hd _ _)

/-- Settles O45: what the read gives (`portRead_queued`, `portRead_free`), put through each of the four
instructions. -/
theorem portReadsTakeTheEnvironmentsValue : Obligations.PortReadsTakeTheEnvironmentsValue := by
  rintro s _ b rfl
  refine ⟨fun v rest hin => ⟨fun hp => ?_, fun hp => ?_⟩,
    fun hin => ⟨Config.portDraw s.draws, fun hp => ?_, fun hp => ?_⟩,
    fun hp => exec_ip_tpb_of_unreadable hp b, fun hp => exec_ia_tpa_of_unreadable hp b⟩
  · exact exec_ip_tpb_of_read (portRead_queued hin hp) b
  · exact exec_ia_tpa_of_read (portRead_queued hin hp) b
  · exact exec_ip_tpb_of_read (portRead_free hin hp) b
  · exact exec_ia_tpa_of_read (portRead_free hin hp) b

/-- Settles O48: SEB and REB are one write to port E of its latch with one bit forced. -/
theorem sebAndRebForceOnePortEBit : Obligations.SebAndRebForceOnePortEBit := by
  rintro b s _ rfl
  refine ⟨fun hp => ⟨?seb, ?reb⟩, fun hp => ⟨?sebFault, ?rebFault⟩⟩
  case seb => exact portWrite_next_bits hp (setBit_bit _ b)
  case reb => exact portWrite_next_bits hp (clearBit_bit _ b)
  case sebFault => exact andThen_portWrite_unwritable hp _ _
  case rebFault => exact andThen_portWrite_unwritable hp _ _

end

/-! PROOFS of the family 30_encoding.md: the opcode map read in both directions, what a step does with the
bytes it fetched, who can set SKIP, and the instructions that fault on their second byte. -/

namespace Sys2Proof

open Machine
open Laws.FirstByteLength (length_operand2 length_operand4 length_operand6 length_address)

/-! ### The opcode map (R66): every first byte selects one row -/

/-- The bytes of an instruction with this first byte and, where R60 asks for one, this second byte. -/
def instructionBytes (first second : Byte) : List Byte :=
  if byteLength first = 2 then [first, second] else [first]

theorem instructionBytes_one {first : Byte} (h : byteLength first = 1) (second : Byte) :
    instructionBytes first second = [first] := by
  simp [instructionBytes, h]

theorem instructionBytes_two {first : Byte} (h : byteLength first = 2) (second : Byte) :
    instructionBytes first second = [first, second] := by
  simp [instructionBytes, h]

theorem byteLength_of_ne_two {first : Byte} (h : byteLength first ≠ 2) : byteLength first = 1 := by
  unfold byteLength at h ⊢
  split at h
  · exact absurd rfl h
  · next hnot => exact if_neg hnot

theorem length_instructionBytes (first second : Byte) :
    (instructionBytes first second).length = byteLength first := by
  by_cases h2 : byteLength first = 2
  · rw [instructionBytes_two h2, h2]
    rfl
  · have h1 := byteLength_of_ne_two h2
    rw [instructionBytes_one h1, h1]
    rfl

theorem OpcodeRow.selects_iff {row : OpcodeRow} {first : Byte} :
    row.selects first = true ↔ first &&& row.mask = row.pattern := by
  simp [OpcodeRow.selects]

/-- Any two rows differ in a bit that both of them fix. -/
theorem opcodeRows_pairwise_differ :
    opcodeRows.Pairwise (fun row row' => row.pattern &&& row'.mask ≠ row'.pattern &&& row.mask) := by
  decide +kernel

theorem OpcodeRow.not_selects_of_differ {row row' : OpcodeRow} {first : Byte}
    (hdiff : row.pattern &&& row'.mask ≠ row'.pattern &&& row.mask) (h' : row'.selects first = true) :
    row.selects first = false := by
  by_contra h
  apply hdiff
  rw [← selects_iff.1 h', ← selects_iff.1 (Bool.of_not_eq_false h), BitVec.and_assoc, BitVec.and_assoc,
    BitVec.and_comm row.mask]

/-- A row of the map that a first byte selects is the row the decoder finds. -/
theorem decodePair_of_mem {row : OpcodeRow} {first : Byte} (hmem : row ∈ opcodeRows)
    (hsel : row.selects first = true) (second : Byte) :
    decodePair first second = .ok (row.build first second) := by
  obtain ⟨before, after, hsplit⟩ := List.append_of_mem hmem
  have hdiff := opcodeRows_pairwise_differ
  rw [hsplit, List.pairwise_append] at hdiff
  obtain ⟨-, -, hbefore⟩ := hdiff
  refine decodePair_ok.2 ⟨row, List.find?_eq_some_iff_append.2 ⟨hsel, before, after, hsplit, ?_⟩, rfl⟩
  intro row' hrow'
  simp [OpcodeRow.not_selects_of_differ (hbefore row' hrow' row List.mem_cons_self) hsel]

/-- R66 leaves no first byte without a row. -/
theorem exists_row_selects (first : Byte) : ∃ row ∈ opcodeRows, row.selects first = true := by
  have hall : ∀ first : Byte, opcodeRows.any (fun row => row.selects first) = true := by decide +kernel
  exact List.any_eq_true.1 (hall first)

theorem decodePair_total (first second : Byte) : ∃ i, decodePair first second = .ok i := by
  obtain ⟨row, hmem, hsel⟩ := exists_row_selects first
  exact ⟨_, decodePair_of_mem hmem hsel second⟩

/-! ### The decoder by the length of the instruction (R60) -/

theorem decode_one {first : Byte} {i : Instr} (h1 : byteLength first = 1)
    (hd : decodePair first 0 = .ok i) (rest : List Byte) : decode (first :: rest) = .ok (i, rest) := by
  simp only [decode, h1, hd]
  rfl

theorem decode_two {first second : Byte} {i : Instr} (h2 : byteLength first = 2)
    (hd : decodePair first second = .ok i) (rest : List Byte) :
    decode (first :: second :: rest) = .ok (i, rest) := by
  simp only [decode, h2, hd]
  rfl

/-- With two bytes at hand decoding always gives an instruction (R71). -/
theorem decode_total (first second : Byte) (rest : List Byte) :
    ∃ i rest', decode (first :: second :: rest) = .ok (i, rest') := by
  by_cases h2 : byteLength first = 2
  · obtain ⟨i, hd⟩ := decodePair_total first second
    exact ⟨i, rest, decode_two h2 hd rest⟩
  · obtain ⟨i, hd⟩ := decodePair_total first 0
    exact ⟨i, second :: rest, decode_one (byteLength_of_ne_two h2) hd _⟩

theorem rest_of_map_ok {x : Except DecodeError Instr} {i : Instr} {l rest : List Byte}
    (h : x.map (fun j => (j, l)) = .ok (i, rest)) : rest = l := by
  cases x with
  | error e => cases h
  | ok j =>
    cases h
    rfl

/-- What decodes is the instruction of one or two bytes at the head, and the rest is what follows them. -/
theorem decode_ok {bytes rest : List Byte} {i : Instr} (h : decode bytes = .ok (i, rest)) :
    ∃ first second, decodePair first second = .ok i ∧ bytes = instructionBytes first second ++ rest := by
  cases bytes with
  | nil => cases h
  | cons first tail =>
    simp only [decode] at h
    split at h
    · next h2 =>
      cases tail with
      | nil => cases h
      | cons second tail =>
        refine ⟨first, second, decodePair_of_map_ok h, ?_⟩
        rw [instructionBytes_two h2, rest_of_map_ok h]
        rfl
    · next h2 =>
      refine ⟨first, 0, decodePair_of_map_ok h, ?_⟩
      rw [instructionBytes_one (byteLength_of_ne_two h2), rest_of_map_ok h]
      rfl

/-! ### The fields of a byte (R62 to R65) -/

/-- The high bits in front of the low bits make the word. -/
theorem append_high_low {n k : Nat} (v : BitVec (n + k)) : v.extractLsb' k n ++ v.extractLsb' 0 k = v := by
  rw [BitVec.extractLsb'_append_extractLsb'_eq_extractLsb' (Nat.zero_add k).symm, BitVec.extractLsb'_eq_self]

theorem highNibble_append (pfx n : BitVec 4) : highNibble (pfx ++ n) = pfx :=
  BitVec.extractLsb'_append_eq_left

theorem lowNibble_append (pfx n : BitVec 4) : lowNibble (pfx ++ n) = n := BitVec.extractLsb'_append_eq_right

theorem offset6_append (pfx : BitVec 2) (n : BitVec 6) : offset6 (pfx ++ n) = n :=
  BitVec.extractLsb'_append_eq_right

theorem address11_high (first second : Byte) :
    (address11 first second).extractLsb' 8 3 = first.extractLsb' 0 3 := BitVec.extractLsb'_append_eq_left

theorem address11_low (first second : Byte) : (address11 first second).extractLsb' 0 8 = second :=
  BitVec.extractLsb'_append_eq_right

/-- The address of JMP and CAL is put together again from the fields of the two bytes (R63). -/
theorem address11_of_fields (p : BitVec 5) (a : BitVec 11) :
    address11 (p ++ a.extractLsb' 8 3) (a.extractLsb' 0 8) = a := by
  rw [address11, BitVec.extractLsb'_append_eq_right]
  exact append_high_low (n := 3) (k := 8) a

/-! ### Encoding what a row built gives its bytes back -/

/-- No bit of the bytes a row accepts is lost in the instruction it builds. -/
def OpcodeRow.Encodes (row : OpcodeRow) : Prop :=
  ∀ first second : Byte, row.selects first = true →
    encode (row.build first second) = instructionBytes first second

section
variable {row : OpcodeRow}

/-- The first byte is fixed, whether or not a second follows. -/
theorem OpcodeRow.Encodes.of_fixed (hmask : row.mask = 0xFF#8)
    (henc : ∀ second, encode (row.build row.pattern second) = instructionBytes row.pattern second) :
    row.Encodes := by
  intro first second hsel
  have hfirst : row.pattern = first := by
    rw [← selects_iff.1 hsel, hmask]
    exact BitVec.and_allOnes
  rw [← hfirst, henc]

/-- A row that fixes the high `n` bits of the first byte: they stand in front of its low bits. -/
theorem OpcodeRow.append_low_of_selects {n k : Nat} {first : Byte} (hnk : n + k = 8)
    (hmask : row.mask = (BitVec.allOnes n ++ 0#k).cast hnk) (hsel : row.selects first = true) :
    (row.pattern.extractLsb' k n ++ first.extractLsb' 0 k).cast hnk = first := by
  rw [← selects_iff.1 hsel, hmask]
  apply BitVec.eq_of_getLsbD_eq
  intro j hj
  by_cases hk : j < k
  · simp [BitVec.getLsbD_append, hk]
  · have hn : j - k < n := by omega
    have hkj : k + (j - k) = j := by omega
    simp [BitVec.getLsbD_append, hk, hn, hkj]

/-- A one-byte instruction with an operand of `k` bits. -/
theorem OpcodeRow.Encodes.of_operand {n k : Nat} (hnk : n + k = 8)
    (hmask : row.mask = (BitVec.allOnes n ++ 0#k).cast hnk)
    (henc : ∀ first second, encode (row.build first second) =
      [(row.pattern.extractLsb' k n ++ first.extractLsb' 0 k).cast hnk])
    (hlen : ∀ v : BitVec k, byteLength ((row.pattern.extractLsb' k n ++ v).cast hnk) = 1) :
    row.Encodes := by
  intro first second hsel
  have hfirst := append_low_of_selects hnk hmask hsel
  rw [henc, instructionBytes_one (hfirst ▸ hlen _), hfirst]

/-- JMP and CAL, with an address over both bytes. -/
theorem OpcodeRow.Encodes.of_address (hmask : row.mask = 0xF8#8)
    (henc : ∀ first second, encode (row.build first second) =
      [row.pattern.extractLsb' 3 5 ++ (address11 first second).extractLsb' 8 3,
        (address11 first second).extractLsb' 0 8])
    (hlen : ∀ v : BitVec 3, byteLength (row.pattern.extractLsb' 3 5 ++ v) = 2) : row.Encodes := by
  intro first second hsel
  have hfirst : row.pattern.extractLsb' 3 5 ++ first.extractLsb' 0 3 = first :=
    append_low_of_selects (n := 5) (k := 3) rfl hmask hsel
  rw [henc, instructionBytes_two (hfirst ▸ hlen _), address11_high, address11_low, hfirst]

end

theorem basicRows_encode : ∀ row ∈ basicRows, row.Encodes := by
  rw [← List.forall_iff_forall_mem]
  repeat' apply And.intro
  all_goals exact .of_fixed rfl fun _ => rfl

theorem arithmeticRows_encode : ∀ row ∈ arithmeticRows, row.Encodes := by
  rw [← List.forall_iff_forall_mem]
  repeat' apply And.intro
  all_goals exact .of_fixed rfl fun _ => rfl

theorem memoryRows_encode : ∀ row ∈ memoryRows, row.Encodes := by
  rw [← List.forall_iff_forall_mem]
  refine ⟨.of_operand (n := 4) (k := 4) rfl rfl (fun _ _ => rfl) (by decide),
    .of_operand (n := 4) (k := 4) rfl rfl (fun _ _ => rfl) (by decide), ?_⟩
  repeat' apply And.intro
  all_goals exact .of_fixed rfl fun _ => rfl

theorem ioRows_encode : ∀ row ∈ ioRows, row.Encodes := by
  rw [← List.forall_iff_forall_mem]
  repeat' apply And.intro
  all_goals exact .of_fixed rfl fun _ => rfl

theorem bitRows_encode : ∀ row ∈ bitRows, row.Encodes := by
  rw [← List.forall_iff_forall_mem]
  repeat' apply And.intro
  all_goals exact .of_operand (n := 6) (k := 2) rfl rfl (fun _ _ => rfl) (by decide)

theorem jumpRows_encode : ∀ row ∈ jumpRows, row.Encodes := by
  rw [← List.forall_iff_forall_mem]
  exact ⟨.of_address rfl (fun _ _ => rfl) (by decide),
    .of_operand (n := 2) (k := 6) rfl rfl (fun _ _ => rfl) (by decide +kernel),
    .of_fixed rfl fun _ => rfl,
    .of_address rfl (fun _ _ => rfl) (by decide),
    .of_operand (n := 4) (k := 4) rfl rfl (fun _ _ => rfl) (by decide)⟩

/-- STM's fixed bits and its operand are the two parts of its second byte (R65). -/
theorem encode_stm_fields (v : Byte) : encode (.stm (v.extractLsb' 6 2) (offset6 v)) = [0x14#8, v] :=
  congrArg (fun second => [0x14#8, second]) (append_high_low (n := 2) (k := 6) v)

theorem encode_ci_fields (v : Byte) : encode (.ci (highNibble v) (lowNibble v)) = [0x17#8, v] :=
  congrArg (fun second => [0x17#8, second]) (append_high_low (n := 4) (k := 4) v)

theorem encode_cli_fields (v : Byte) : encode (.cli (highNibble v) (lowNibble v)) = [0x16#8, v] :=
  congrArg (fun second => [0x16#8, second]) (append_high_low (n := 4) (k := 4) v)

theorem statusRows_encode : ∀ row ∈ statusRows, row.Encodes := by
  rw [← List.forall_iff_forall_mem]
  exact ⟨.of_fixed rfl fun _ => rfl, .of_fixed rfl fun _ => rfl, .of_fixed rfl fun _ => rfl,
    .of_fixed rfl fun _ => rfl, .of_fixed rfl fun _ => rfl, .of_fixed rfl fun _ => rfl,
    .of_fixed rfl encode_stm_fields⟩

theorem immediateRows_encode : ∀ row ∈ immediateRows, row.Encodes := by
  rw [← List.forall_iff_forall_mem]
  exact ⟨.of_fixed rfl encode_ci_fields, .of_fixed rfl encode_cli_fields⟩

theorem specialRows_encode : ∀ row ∈ specialRows, row.Encodes := by
  rw [← List.forall_iff_forall_mem]
  repeat' apply And.intro
  all_goals exact .of_operand (n := 6) (k := 2) rfl rfl (fun _ _ => rfl) (by decide)

theorem unassignedRows_encode : ∀ row ∈ unassignedRows, row.Encodes := by
  rw [← List.forall_iff_forall_mem]
  exact ⟨.of_fixed rfl fun _ => rfl, .of_fixed rfl fun _ => rfl⟩

theorem opcodeRows_encode : ∀ row ∈ opcodeRows, row.Encodes := by
  simp only [opcodeRows, List.forall_mem_append, and_assoc]
  exact ⟨basicRows_encode, arithmeticRows_encode, memoryRows_encode, ioRows_encode, bitRows_encode,
    jumpRows_encode, statusRows_encode, immediateRows_encode, specialRows_encode, unassignedRows_encode⟩

/-- Encoding a decoded instruction gives the bytes it was decoded from. -/
theorem encode_of_decodePair {first second : Byte} {i : Instr} (h : decodePair first second = .ok i) :
    encode i = instructionBytes first second := by
  obtain ⟨row, hrow, rfl⟩ := decodePair_ok.1 h
  have hsel : row.selects first = true := List.find?_some (p := (OpcodeRow.selects · first)) hrow
  exact opcodeRows_encode row (List.mem_of_find?_eq_some hrow) first second hsel

/-! ### Decoding what was encoded gives the instruction back -/

theorem decodePair_jmp (h : BitVec 3) (second : Byte) :
    decodePair (0b10100#5 ++ h) second = .ok (.jmp (address11 (0b10100#5 ++ h) second)) :=
  decodePair_of_mem (row := ⟨0xA0#8, 0xF8#8, fun first second => .jmp (address11 first second)⟩)
    (by simp [opcodeRows, jumpRows]) (by revert h; decide) second

theorem decodePair_cal (h : BitVec 3) (second : Byte) :
    decodePair (0b10101#5 ++ h) second = .ok (.cal (address11 (0b10101#5 ++ h) second)) :=
  decodePair_of_mem (row := ⟨0xA8#8, 0xF8#8, fun first second => .cal (address11 first second)⟩)
    (by simp [opcodeRows, jumpRows]) (by revert h; decide) second

/-- The instruction and the bytes after it come back from its encoding and those bytes. -/
theorem decode_encode (i : Instr) (rest : List Byte) : decode (encode i ++ rest) = .ok (i, rest) := by
  cases i with
  | fbf b | fbt b | tab b | tmb b | tpa b | tpb b | cmb b | sfb b | smb b | seb b | spb b | rfb b | rmb b
  | reb b | rpb b | xm b | xmi b | xmd b | lm b =>
    exact decode_one (length_operand2 _ (by decide) b) (by revert b; decide) rest
  | li n | ldz n | czp n =>
    exact decode_one (length_operand4 _ (by decide) n) (by revert n; decide) rest
  | jcp o => exact decode_one (length_operand6 o) (by revert o; decide +kernel) rest
  | jmp a =>
    have hd := decodePair_jmp (a.extractLsb' 8 3) (a.extractLsb' 0 8)
    rw [address11_of_fields] at hd
    exact decode_two (length_address _ (by decide) _) hd rest
  | cal a =>
    have hd := decodePair_cal (a.extractLsb' 8 3) (a.extractLsb' 0 8)
    rw [address11_of_fields] at hd
    exact decode_two (length_address _ (by decide) _) hd rest
  | stm pfx n =>
    have hd : decodePair 0x14 (pfx ++ n) = .ok (.stm ((pfx ++ n).extractLsb' 6 2) (offset6 (pfx ++ n))) := rfl
    rw [BitVec.extractLsb'_append_eq_left, offset6_append] at hd
    exact decode_two rfl hd rest
  | ci pfx n =>
    have hd : decodePair 0x17 (pfx ++ n) = .ok (.ci (highNibble (pfx ++ n)) (lowNibble (pfx ++ n))) := rfl
    rw [highNibble_append, lowNibble_append] at hd
    exact decode_two rfl hd rest
  | cli pfx n =>
    have hd : decodePair 0x16 (pfx ++ n) = .ok (.cli (highNibble (pfx ++ n)) (lowNibble (pfx ++ n))) := rfl
    rw [highNibble_append, lowNibble_append] at hd
    exact decode_two rfl hd rest
  | _ => rfl

/-! ### The length and the well-formedness of what decodes -/

/-- R60's table, with the range as numbers. -/
theorem byteLength_eq (first : Byte) :
    byteLength first =
      if first ∈ [0x14#8, 0x15#8, 0x16#8, 0x17#8, 0x1E#8]
          ∨ (0xA0 ≤ first.toNat ∧ first.toNat ≤ 0xAF) then 2 else 1 := by
  simp [byteLength, BitVec.le_def, or_assoc]

theorem head?_instructionBytes (first second : Byte) :
    (instructionBytes first second).head? = some first := by
  unfold instructionBytes
  split <;> rfl

/-- Only the unassigned bytes and CI, CLI and STM can give an ill-formed term (R68, R69). -/
theorem wellFormed_of_decodePair {first second : Byte} {i : Instr} (h : decodePair first second = .ok i)
    (hfirst : first ∉ [0x1C#8, 0x45#8, 0x17#8, 0x16#8, 0x14#8]) : i.wellFormed = true := by
  have hhead : (encode i).head? = some first := by
    rw [encode_of_decodePair h, head?_instructionBytes]
  cases i with
  | ci | cli | stm | unassigned1C | unassigned45 =>
    cases hhead
    simp at hfirst
  | _ => rfl

theorem ci_wellFormed_iff (v : Byte) (n : BitVec 4) :
    (Instr.ci (highNibble v) n).wellFormed = false ↔ v.toNat / 16 ≠ 0xC := by
  simp [Instr.wellFormed, ciPrefix, ← BitVec.toNat_inj, highNibble_toNat]

theorem cli_wellFormed_iff (v : Byte) (n : BitVec 4) :
    (Instr.cli (highNibble v) n).wellFormed = false ↔ v.toNat / 16 ≠ 0xE := by
  simp [Instr.wellFormed, cliPrefix, ← BitVec.toNat_inj, highNibble_toNat]

theorem highTwo_toNat (v : Byte) : (v.extractLsb' 6 2).toNat = v.toNat / 64 := by
  have := v.isLt
  simp only [BitVec.extractLsb'_toNat, Nat.shiftRight_eq_div_pow]
  omega

theorem stm_wellFormed_iff (v : Byte) (n : BitVec 6) :
    (Instr.stm (v.extractLsb' 6 2) n).wellFormed = false ↔ v.toNat / 64 ≠ 2 := by
  rw [← highTwo_toNat]
  simp [Instr.wellFormed, stmPrefix, ← BitVec.toNat_inj]

end Sys2Proof

namespace Sys2Proof.Machine

/-! ### No meaning refuses, and no step (R71) -/

theorem andThen_ne_refused {α : Type} {x : Except Fault α} {k : α → Result} {r : Refusal}
    (hk : ∀ a, k a ≠ .refused r) : andThen x k ≠ .refused r := by
  intro h
  obtain ⟨a, -, ha⟩ := andThen_refused.1 h
  exact hk a ha

theorem exec_ne_refused (i : Instr) (s : State) (r : Refusal) : exec i s ≠ .refused r := by
  cases i with
  | ad | ads | adc | exl | cm | tmb | cmb | lm | s | xm | xmi | xmd | ip | ia | tpa | tpb
  | op | oe | seb | reb | cal | czp | rt | rts | ci | cli | stm =>
    exact andThen_ne_refused fun _ => nofun
  | inm | dem | smb | rmb | ocd => exact andThen_ne_refused fun _ => andThen_ne_refused fun _ => nofun
  | li n =>
    rw [exec_li]
    nofun
  | _ => nofun

theorem retireResult_ne_refused {f : Fetched} {res : Result} {r : Refusal} (h : res ≠ .refused r) :
    retireResult f res ≠ .refused r := by
  cases res with
  | refused x => exact h
  | next | fault => nofun

/-! ### A step that executes (R72) -/

theorem Fetched.length_bytes {s : State} {f : Fetched} (hf : fetch s = .ok f) :
    f.bytes.length = byteLength f.first := by
  obtain ⟨-, ⟨h1, htail⟩ | ⟨h2, second, -, htail⟩⟩ := fetch_ok.1 hf
  · simp [Fetched.bytes, htail, byteLength_of_ne_two h1]
  · simp [Fetched.bytes, htail, h2]

/-- A step under no skip executes what the fetched bytes decode to, with pc advanced past them. -/
theorem step_of_decode {s : State} {f : Fetched} {i : Instr} {rest : List Byte}
    (hacc : acceptInterrupt (boundary s) = false) (hskip : (boundary s).skip = false)
    (hf : fetch (boundary s) = .ok f) (hd : decode f.bytes = .ok (i, rest)) :
    step s = retireResult f (exec i ((boundary s).advanced f.bytes.length)) := by
  rw [boundary_skip] at hskip
  simp [step, hacc, fetchAndExecute, hf, hskip, hd]

/-! ### One LI after another (R75, R140, decision D19) -/

/-- No interrupt is accepted where PREV names an LI (R230, decision D6). -/
theorem acceptInterrupt_of_prev_li {s : State} (h : highNibble s.prev = 0x9) :
    acceptInterrupt s = false := by
  simp [acceptInterrupt, h]

/-- Where the byte at pc is an LI's, the fetch is that byte alone. -/
theorem fetch_li {s : State} {n : BitVec 4} (h : progByte s s.pc = some (0x9#4 ++ n)) :
    fetch s = .ok ⟨0x9#4 ++ n, []⟩ := by
  have hlen : byteLength (0x9#4 ++ n) = 1 := Laws.FirstByteLength.length_operand4 _ (by decide) n
  exact fetch_ok.2 ⟨h, .inl ⟨by simp [hlen], rfl⟩⟩

/-- The step of an LI at pc: ACC as LI's rule has it, pc one further, PREV the LI's byte. -/
theorem step_li {s : State} {n : BitVec 4} (hacc : acceptInterrupt (boundary s) = false)
    (hskip : (boundary s).skip = false) (hbyte : progByte (boundary s) (boundary s).pc = some (0x9#4 ++ n)) :
    ∃ t, step s = .next t ∧ t.acc = (if highNibble s.prev = 0x9 then s.acc else n) ∧ t.pc = s.pc + 1 ∧
      t.prev = 0x9#4 ++ n ∧ t.skip = false := by
  have hd : decode (Fetched.bytes ⟨0x9#4 ++ n, []⟩) = .ok (.li n, []) := decode_encode (.li n) []
  have hstep := step_of_decode hacc hskip (fetch_li hbyte) hd
  rw [exec_li] at hstep
  refine ⟨_, hstep, ?acc, ?pc, ?prev, ?skip⟩
  case acc => simp
  case pc => simp [Fetched.bytes]
  case prev => simp
  case skip => simpa using hskip

/-- The boundary leaves program memory. -/
theorem progByte_boundary (s : State) (a : PAddr) : progByte (boundary s) a = progByte s a := by
  simp [progByte]

/-! ### The check of the second byte of CI, CLI and STM (R69) -/

/-- A concatenation as the number with these two parts. -/
theorem append_eq_ofNat {n m : Nat} (a : BitVec n) (b : BitVec m) :
    a ++ b = BitVec.ofNat (n + m) (a.toNat * 2 ^ m + b.toNat) := by
  apply BitVec.eq_of_toNat_eq
  rw [BitVec.toNat_ofNat, ← toNat_append_eq, Nat.mod_eq_of_lt (a ++ b).isLt]

section
variable {s : State} {good : Bool} {first second : Byte} {k : Unit → Result}

/-- Right fixed bits, or ones that are ignored, let the instruction go on with its operand. -/
theorem andThen_checkPrefix_pass (h : good = true ∨ s.cfg.reservedOperand = .ignorePrefix) :
    andThen (checkPrefix s good first second) k = k () := by
  rw [checkPrefix_ok.2 h.symm, andThen_ok]

/-- Wrong fixed bits that are not ignored end the step; `word` is the second byte as the fault names it. -/
theorem andThen_checkPrefix_raise {word : Byte} (h : good = false)
    (hcfg : s.cfg.reservedOperand = .fault) (hword : second = word) :
    andThen (checkPrefix s good first second) k = .fault (.reservedOperand first word) := by
  rw [checkPrefix_error.2 ⟨hcfg, h, rfl⟩, andThen_error, hword]

end

end Sys2Proof.Machine

section
open Sys2Proof Sys2Proof.Machine

/-- Settles O1, as `decode_encode`: an instruction without an operand by computation, one with an operand
through the field of the byte that holds it. -/
theorem decodeInvertsEncode : Obligations.DecodeInvertsEncode := decode_encode

/-- Settles O2: what decodes stands at the head of the bytes (`decode_ok`), and every row of the opcode map
keeps all bits of the bytes it accepts (`encode_of_decodePair`). -/
theorem encodeInvertsDecode : Obligations.EncodeInvertsDecode := by
  intro bytes i rest h
  obtain ⟨first, second, hd, rfl⟩ := decode_ok h
  rw [encode_of_decodePair hd]

/-- Settles O3: the instruction has the length that R60 gives its first byte, and its bytes are followed by
the rest. -/
theorem instructionLengthByFirstByte : Obligations.InstructionLengthByFirstByte := by
  intro first tail i rest h
  have hbytes := encodeInvertsDecode (first :: tail) i rest h
  obtain ⟨second, hd⟩ := decode_cons_ok h
  refine ⟨?_, ?_⟩
  · rw [encode_of_decodePair hd, length_instructionBytes, byteLength_eq]
  · rw [← List.length_append, hbytes, List.length_cons]

/-- Settles O4: decoding is total (`decode_total`); only five first bytes can give an ill-formed term, the
two unassigned ones always and the others by the high bits of the second byte. -/
theorem decodingIsTotal : Obligations.DecodingIsTotal := by
  intro first second rest
  by_cases hfirst : first ∈ [0x1C#8, 0x45#8, 0x17#8, 0x16#8, 0x14#8]
  · fin_cases hfirst
    · exact ⟨.unassigned1C, second :: rest, rfl, by simp [Instr.wellFormed]⟩
    · exact ⟨.unassigned45, second :: rest, rfl, by simp [Instr.wellFormed]⟩
    · exact ⟨.ci (highNibble second) (lowNibble second), rest, rfl, by simp [ci_wellFormed_iff]⟩
    · exact ⟨.cli (highNibble second) (lowNibble second), rest, rfl, by simp [cli_wellFormed_iff]⟩
    · exact ⟨.stm (second.extractLsb' 6 2) (offset6 second), rest, rfl, by simp [stm_wellFormed_iff]⟩
  · obtain ⟨i, rest', hd⟩ := decode_total first second rest
    obtain ⟨second', hpair⟩ := decode_cons_ok hd
    refine ⟨i, rest', hd, ?_⟩
    rw [wellFormed_of_decodePair hpair hfirst]
    simp only [List.mem_cons, List.not_mem_nil, or_false, not_or] at hfirst
    simp [hfirst]

/-- Settles O12, by the three things a step can be (`step_next_cases`). -/
theorem prevNamesTheExecutedInstruction : Obligations.PrevNamesTheExecutedInstruction := by
  intro s t h
  obtain ⟨hacc, u, hu, rfl⟩ | ⟨hacc, hskip, f, -, rfl⟩ | ⟨hacc, hskip, f, i, rest, u, hf, -, -, rfl⟩ :=
    step_next_cases h
  · obtain ⟨-, -, hskip, -⟩ := acceptInterrupt_iff.1 hacc
    obtain ⟨-, rfl⟩ := interruptEntry_ok.1 hu
    refine ⟨fun _ => ⟨by simp, by simpa using hskip⟩, fun hno => ?_, fun hno => ?_⟩
    · cases hacc.symm.trans hno
    · cases hacc.symm.trans hno
  · refine ⟨fun hyes => ?_, fun _ _ => ⟨passOver_prev _ _, passOver_skip _ _⟩, fun _ hno => ?_⟩
    · cases hacc.symm.trans hyes
    · cases hskip.symm.trans hno
  · refine ⟨fun hyes => ?_, fun _ hyes => ?_, fun _ _ => ?_⟩
    · cases hacc.symm.trans hyes
    · cases hskip.symm.trans hyes
    · rw [retire_prev]
      exact (fetch_ok.1 hf).1

/-- Settles O16, from the clause about SKIP of `exec_moves`. -/
theorem onlyListedInstructionsSkip : Obligations.OnlyListedInstructionsSkip := by
  intro i s t h hclear hset
  obtain hkept | hcan := (exec_moves h).skip
  · simp [hkept, hclear] at hset
  · exact hcan

/-- Settles O28: of the parts of a step only executing could refuse, and no meaning does
(`exec_ne_refused`). -/
theorem noStepRefuses : Obligations.NoStepRefuses := by
  intro s x
  unfold step fetchAndExecute
  split
  · exact andThen_ne_refused fun _ => nofun
  split
  · nofun
  split
  · nofun
  split
  · exact retireResult_ne_refused (exec_ne_refused _ _ _)
  · nofun

/-- Settles O29: both steps are `step_li`; PREV of the first keeps the interrupt off and the second LI from
loading. -/
theorem onlyTheFirstLiOfASequenceLoads : Obligations.OnlyTheFirstLiOfASequenceLoads := by
  intro s t n m hacc hskip hbyte hstep hnext
  obtain ⟨t', hstep', -, -, hprev, hskip'⟩ := step_li hacc hskip hbyte
  cases hstep.symm.trans hstep'
  have hli : highNibble t.prev = 0x9 := hprev ▸ highNibble_append 0x9 n
  have hacc' : acceptInterrupt (boundary t) = false :=
    acceptInterrupt_of_prev_li (by rw [boundary_prev, hli])
  obtain ⟨u, hu, huacc, hupc, huprev, -⟩ :=
    step_li (n := m) hacc' (by rw [boundary_skip, hskip']) (by rw [progByte_boundary, boundary_pc, hnext])
  exact ⟨u, hu, by rw [huacc, if_pos hli], hupc, huprev⟩

/-- Settles O6, as `step_of_decode` with the end of an executed instruction written out. -/
theorem stepRunsTheDecodedInstruction : Obligations.StepRunsTheDecodedInstruction := by
  intro s f i rest hacc hskip hf hd
  rw [step_of_decode hacc hskip hf hd]
  rfl

/-- Settles O7: the step is `passOver`, of as many bytes as the first one asks for. -/
theorem skipPassesOverOneInstruction : Obligations.SkipPassesOverOneInstruction := by
  intro s f hskip hf
  rw [step_of_skip ((boundary_skip s).symm.trans hskip) hf, ← Fetched.length_bytes hf]
  rfl

/-- Settles O54: TTM and TIT by their definitions, STM by the check of its second byte (`checkPrefix`). -/
theorem timerAndInterruptFlagInstructions : Obligations.TimerAndInterruptFlagInstructions := by
  intro s pfx n
  refine ⟨rfl, rfl, fun hok => ?pass, fun hbad hcfg => ?raise⟩
  case pass => exact andThen_checkPrefix_pass (hok.imp_left beq_iff_eq.2)
  case raise => exact andThen_checkPrefix_raise (beq_eq_false_iff_ne.2 hbad) hcfg (append_eq_ofNat pfx n)

/-- Settles O55: CI and CLI by the check of their second byte (`checkPrefix`). -/
theorem immediateComparesSkipOnEquality : Obligations.ImmediateComparesSkipOnEquality := by
  intro s pfx n
  refine ⟨fun hok => ?ci, fun hok => ?cli, fun hbad hcfg => ?ciRaise, fun hbad hcfg => ?cliRaise⟩
  case ci => exact andThen_checkPrefix_pass (hok.imp_left beq_iff_eq.2)
  case cli => exact andThen_checkPrefix_pass (hok.imp_left beq_iff_eq.2)
  case ciRaise => exact andThen_checkPrefix_raise (beq_eq_false_iff_ne.2 hbad) hcfg (append_eq_ofNat pfx n)
  case cliRaise => exact andThen_checkPrefix_raise (beq_eq_false_iff_ne.2 hbad) hcfg (append_eq_ofNat pfx n)

/-- Settles O58: both bytes are rows of the opcode map, and their meaning is the fault. -/
theorem unassignedBytesFault : Obligations.UnassignedBytesFault := ⟨rfl, rfl, fun _ => ⟨rfl, rfl⟩⟩

end

/-! PROOFS of the family 40_basic_operations.md: the return from a call and from interrupt entry, the
transfers and exchanges, and the instructions that write IE and C. -/

namespace Sys2Proof.Machine

/-! ### The stack that a call or interrupt entry leaves, and RT (R186, R232, R234) -/

/-- RT pops the top of the stack into pc (R103). -/
theorem exec_rt_of_stack {u : State} {v : PAddr} {rest : List PAddr} (h : u.stack = v :: rest) :
    exec .rt u = .next { u with pc := v, stack := rest } := by
  obtain ⟨-, -, -, hpop, -⟩ := returnsPopTheStack
  exact (hpop u v rest h).1

/-- A call that completes has pushed the pc it ran with (R184, R185). -/
theorem stack_of_callTo {s t : State} {target : PAddr} (h : andThen (callTo s target) .next = .next t) :
    t.stack = s.pc :: s.stack := by
  obtain ⟨u, hcall, hnext⟩ := andThen_next.1 h
  obtain ⟨-, rfl⟩ := callTo_ok.1 hcall
  cases hnext
  rfl

/-- A step that takes the interrupt has pushed the pc of its boundary (R232). -/
theorem stack_of_interruptStep {s t : State} (hacc : acceptInterrupt (boundary s) = true)
    (h : step s = .next t) : t.stack = (boundary s).pc :: (boundary s).stack := by
  obtain ⟨-, u, hu, rfl⟩ | ⟨hno, -⟩ | ⟨hno, -⟩ := step_next_cases h
  · obtain ⟨-, rfl⟩ := interruptEntry_ok.1 hu
    exact countCycles_stack _ _
  · cases hacc.symm.trans hno
  · cases hacc.symm.trans hno

/-! ### What keeps the interrupt out (R230) -/

/-- No interrupt is accepted while IE is 0. -/
theorem acceptInterrupt_of_ie {s : State} (h : s.ie = false) : acceptInterrupt s = false := by
  simp [acceptInterrupt, h]

/-- No interrupt is accepted where PREV names EI (decision D6). -/
theorem acceptInterrupt_of_prev_ei {s : State} (h : s.prev = 0x31) : acceptInterrupt s = false := by
  simp [acceptInterrupt, h]

end Sys2Proof.Machine

section
open Sys2Proof Sys2Proof.Machine

/-- Settles O52: CAL, CZP and interrupt entry leave the saved address on top of the old stack, and RT pops
it, in whatever state it finds that stack. -/
theorem returnUndoesCallAndInterruptEntry : Obligations.ReturnUndoesCallAndInterruptEntry := by
  refine ⟨fun i s t u hi h hstack => ?call, fun s t u hacc h hstack => ?interrupt⟩
  case call =>
    have hpushed : t.stack = s.pc :: s.stack := by
      obtain ⟨a, rfl⟩ | ⟨n, rfl⟩ := hi
      · exact stack_of_callTo (target := a) h
      · exact stack_of_callTo (target := zeroPageTarget n) h
    exact exec_rt_of_stack (hstack.trans hpushed)
  case interrupt => exact exec_rt_of_stack (hstack.trans (stack_of_interruptStep hacc h))

/-- Settles O31: the meanings of the three answer the state they ran from. -/
theorem nopSpbRpbChangeNothing : Obligations.NopSpbRpbChangeNothing := fun _ _ => ⟨rfl, rfl, rfl⟩

/-- Settles O33: the ten bytes, and the ten meanings as record updates. -/
theorem transfersCopyAndExchangesSwap : Obligations.TransfersCopyAndExchangesSwap :=
  ⟨⟨rfl, rfl, rfl, rfl, rfl, rfl, rfl, rfl, rfl, rfl⟩,
    fun _ => ⟨rfl, rfl, rfl, rfl, rfl, rfl, rfl, rfl, rfl, rfl⟩⟩

/-- Settles O34: XLS and XHR as record updates, and each exchange run from the state it answered. -/
theorem exchangingTwiceRestores : Obligations.ExchangingTwiceRestores := by
  refine ⟨fun s => ⟨rfl, rfl⟩, fun i s hi => ?_⟩
  cases i with
  | xaz | xaw | xly | xhx | xls | xhr => exact ⟨_, rfl, rfl⟩
  | _ => simp at hi

/-- Settles O53: the boundary leaves IE and PREV, either of which keeps the interrupt out; the six meanings
are record updates, and XC's undoes itself. -/
theorem enableAndCarryInstructions : Obligations.EnableAndCarryInstructions := by
  refine ⟨?accept, fun s => ⟨_, rfl, rfl⟩, rfl, rfl, rfl, rfl, rfl, rfl,
    fun s => ⟨rfl, rfl, rfl, rfl, rfl, rfl⟩⟩
  case accept =>
    rintro u (hie | hprev)
    · exact acceptInterrupt_of_ie ((boundary_ie u).trans hie)
    · exact acceptInterrupt_of_prev_ei ((boundary_prev u).trans hprev)

end

/-! PROOFS of the family 41_arithmetic_logic.md: the carry policy shows in C only, the additions and their
carries, the decimal sequence, RAR as a rotation of `C:ACC`, and the tests of the cell at DP. -/

namespace Sys2Proof.Machine

/-! ### The carry policy (R120) -/

/-- The same state under another carry policy. -/
def State.withPolicy (s : State) (p : CarryPolicy) : State :=
  { s with cfg := { s.cfg with carryPolicy := p } }

/-- A port read draws the same under either policy. -/
theorem drawn_withPolicy (s : State) (p : CarryPolicy) :
    (s.withPolicy p).drawn = s.drawn.withPolicy p := by
  cases h : s.inputs <;> simp [State.drawn, State.withPolicy, h]

/-- Under another policy an instruction leaves the same next state, but for C. -/
theorem exec_withPolicy {i : Instr} {s t : State} (p : CarryPolicy) (h : exec i s = .next t) :
    ∃ c, exec i (s.withPolicy p) = .next { t.withPolicy p with c := c } := by
  cases i with
  | ad | ads | adc | exl | cm | tmb | cmb | lm | ci | cli | stm =>
    obtain ⟨m, hm, h⟩ := andThen_next.1 h
    cases h
    exact ⟨_, andThen_next.2 ⟨m, hm, rfl⟩⟩
  | s =>
    obtain ⟨u, hu, h⟩ := andThen_next.1 h
    obtain ⟨hmap, rfl⟩ := storeDp_ok.1 hu
    cases h
    exact ⟨_, andThen_next.2 ⟨_, storeDp_ok.2 ⟨hmap, rfl⟩, rfl⟩⟩
  | inm | dem | smb | rmb =>
    obtain ⟨m, hm, h⟩ := andThen_next.1 h
    obtain ⟨u, hu, h⟩ := andThen_next.1 h
    obtain ⟨hmap, rfl⟩ := storeDp_ok.1 hu
    cases h
    exact ⟨_, andThen_next.2 ⟨m, hm, andThen_next.2 ⟨_, storeDp_ok.2 ⟨hmap, rfl⟩, rfl⟩⟩⟩
  | xm | xmi | xmd =>
    obtain ⟨u, hu, h⟩ := andThen_next.1 h
    obtain ⟨hmap, rfl⟩ := exchangeCell_ok.1 hu
    cases h
    exact ⟨_, andThen_next.2 ⟨_, exchangeCell_ok.2 ⟨hmap, rfl⟩, rfl⟩⟩
  | ip | ia | tpa | tpb =>
    obtain ⟨vt, hvt, h⟩ := andThen_next.1 h
    obtain ⟨hread, rfl⟩ := portRead_ok.1 hvt
    cases h
    exact ⟨_, andThen_next.2 ⟨_, portRead_ok.2 ⟨hread, by rw [drawn_withPolicy]⟩, rfl⟩⟩
  | op | oe | seb | reb =>
    obtain ⟨u, hu, h⟩ := andThen_next.1 h
    obtain ⟨hwrite, rfl⟩ := portWrite_ok.1 hu
    cases h
    exact ⟨_, andThen_next.2 ⟨_, portWrite_ok.2 ⟨hwrite, rfl⟩, rfl⟩⟩
  | ocd =>
    obtain ⟨u, hu, h⟩ := andThen_next.1 h
    obtain ⟨hwrite, rfl⟩ := portWrite_ok.1 hu
    obtain ⟨w, hw, h⟩ := andThen_next.1 h
    obtain ⟨hwrite', rfl⟩ := portWrite_ok.1 hw
    cases h
    exact ⟨_, andThen_next.2 ⟨_, portWrite_ok.2 ⟨hwrite, rfl⟩,
      andThen_next.2 ⟨_, portWrite_ok.2 ⟨hwrite', rfl⟩, rfl⟩⟩⟩
  | cal | czp =>
    obtain ⟨u, hu, h⟩ := andThen_next.1 h
    obtain ⟨hroom, rfl⟩ := callTo_ok.1 hu
    cases h
    exact ⟨_, andThen_next.2 ⟨_, callTo_ok.2 ⟨hroom, rfl⟩, rfl⟩⟩
  | rt | rts =>
    obtain ⟨u, hu, h⟩ := andThen_next.1 h
    obtain ⟨v, rest, hstack, rfl⟩ := returnFrom_ok.1 hu
    cases h
    exact ⟨_, andThen_next.2 ⟨_, returnFrom_ok.2 ⟨v, rest, hstack, rfl⟩, rfl⟩⟩
  | li n =>
    rw [exec_li] at h
    cases h
    exact ⟨_, exec_li n _⟩
  | unassigned1C | unassigned45 => cases h
  | _ =>
    cases h
    exact ⟨_, rfl⟩

theorem policyCarry_eq (s : State) (carry : Bool) :
    policyCarry s carry = if s.cfg.carryPolicy = .table then carry else s.c := by
  cases h : s.cfg.carryPolicy <;> simp [policyCarry, h]

/-! ### An instruction that reads the cell at DP (R43, R225) -/

section
variable {s : State} (k : Nibble → Result)

theorem andThen_loadDp_mapped (h : ramMapped s.cfg (dp s) = true) :
    andThen (loadDp s) k = k (cell s (dp s)) := by
  rw [loadDp_ok.2 ⟨h, rfl⟩, andThen_ok]

theorem andThen_loadDp_unmapped (h : ramMapped s.cfg (dp s) = false) :
    andThen (loadDp s) k = .fault (.unmappedRam (dp s)) := by
  rw [loadDp_error.2 ⟨h, rfl⟩, andThen_error]

end

/-! ### The carry out of the addition of a constant (R121, R126, R127) -/

theorem sumCarry_exactSum_const (v k : Nibble) :
    sumCarry (exactSum v k false) = decide (16 - k.toNat ≤ v.toNat) := by
  refine decide_eq_decide.2 ?_
  simp only [exactSum, Bool.toNat_false]
  omega

/-- The carry out of an increment is its wrap. -/
theorem sumCarry_exactSum_one (v : Nibble) : sumCarry (exactSum v 1 false) = decide (v = 0xF) := by
  revert v; decide

/-! ### The decimal adjustments where C is not theirs (decision D12) -/

section
variable {s : State} (h : s.cfg.carryPolicy = .nec)
include h

theorem exec_daa_nec : exec .daa s = .next { s with acc := BitVec.ofNat 4 (s.acc.toNat + 6) } := by
  simp only [exec, execDaa, policyCarry_eq, h, reduceCtorEq, if_false]
  rfl

theorem exec_das_nec : exec .das s = .next { s with acc := BitVec.ofNat 4 (s.acc.toNat + 10) } := by
  simp only [exec, execDas, policyCarry_eq, h, reduceCtorEq, if_false]
  rfl

end

/-! ### The complement and the two's complement (R128, R129) -/

theorem xor_ones_eq (v : Nibble) : v ^^^ 0xF = BitVec.ofNat 4 (15 - v.toNat) := by revert v; decide

theorem incNibble_xor_ones (v : Nibble) : incNibble (v ^^^ 0xF) = BitVec.ofNat 4 (16 - v.toNat) := by
  revert v; decide

/-! ### The five bits `C:ACC` (R131) -/

/-- `C:ACC`, C the high bit. -/
def carryAcc (s : State) : BitVec 5 := BitVec.ofBool s.c ++ s.acc

/-- `C:ACC <- v`. -/
def State.setCarryAcc (s : State) (v : BitVec 5) : State :=
  { s with c := v.getLsbD 4, acc := v.extractLsb' 0 4 }

theorem carryAcc_setCarryAcc (s : State) (v : BitVec 5) : carryAcc (s.setCarryAcc v) = v := by
  revert v; simp only [carryAcc, State.setCarryAcc]; decide

/-- The low four bits and the high bit of `C:ACC`. -/
theorem ofBool_append_fields (c : Bool) (v : Nibble) :
    (BitVec.ofBool c ++ v).extractLsb' 0 4 = v ∧ (BitVec.ofBool c ++ v).getLsbD 4 = c := by
  revert c v; decide

/-- The same of `C:ACC` rotated one place right. -/
theorem ofBool_append_rotateRight_fields (c : Bool) (v : Nibble) :
    ((BitVec.ofBool c ++ v).rotateRight 1).extractLsb' 0 4 = BitVec.ofBool c ++ v.extractLsb' 1 3 ∧
    ((BitVec.ofBool c ++ v).rotateRight 1).getLsbD 4 = v.getLsbD 0 := by
  revert c v; decide

theorem setCarryAcc_carryAcc (s : State) : s.setCarryAcc (carryAcc s) = s := by
  obtain ⟨hacc, hc⟩ := ofBool_append_fields s.c s.acc
  simp only [State.setCarryAcc, carryAcc, hacc, hc]

/-- RAR is the rotation of `C:ACC` one place right. -/
theorem exec_rar (s : State) : exec .rar s = .next (s.setCarryAcc ((carryAcc s).rotateRight 1)) := by
  obtain ⟨hacc, hc⟩ := ofBool_append_rotateRight_fields s.c s.acc
  simp only [exec, execRar, State.setCarryAcc, carryAcc, hacc, hc]

theorem exec_rar_setCarryAcc (s : State) (v : BitVec 5) :
    exec .rar (s.setCarryAcc v) = .next (s.setCarryAcc (v.rotateRight 1)) := by
  rw [exec_rar, carryAcc_setCarryAcc]; rfl

theorem rotateRight_five (v : BitVec 5) :
    ((((v.rotateRight 1).rotateRight 1).rotateRight 1).rotateRight 1).rotateRight 1 = v := by
  revert v; decide

/-- The nibble that RAR leaves, bit by bit. -/
theorem ofBool_append_high_bits (c : Bool) (v : Nibble) :
    (BitVec.ofBool c ++ v.extractLsb' 1 3).getLsbD 3 = c ∧
    ∀ j < 3, (BitVec.ofBool c ++ v.extractLsb' 1 3).getLsbD j = v.getLsbD (j + 1) := by
  revert c v; decide

end Sys2Proof.Machine

section
open Sys2Proof Sys2Proof.Machine

/-- Settles O22: what runs under the second policy is the first next state with that policy and its own C. -/
theorem skipDoesNotDependOnCarryPolicy : Obligations.SkipDoesNotDependOnCarryPolicy := by
  intro i s p t u h hu
  obtain ⟨c, hp⟩ := exec_withPolicy p h
  cases hu.symm.trans hp
  exact ⟨rfl, rfl, rfl, rfl⟩

/-- Settles O35: the sums, their carries and C by the policy; AD by its access to the cell at DP. -/
theorem policyArithmeticResults : Obligations.PolicyArithmeticResults := by
  intro s
  refine ⟨?inc, ?dec, ?daa, ?das, fun hmap r hr => ?ad, fun hmap => ?unmapped⟩
  case inc => simp only [exec, execInc, policyCarry_eq, sumCarry_exactSum_one]; rfl
  case dec => simp only [exec, execDec, policyCarry_eq, wrapsDown_decNibble]; rw [decNibble_eq]; rfl
  case daa => simp only [exec, execDaa, policyCarry_eq, sumCarry_exactSum_const]; rfl
  case das => simp only [exec, execDas, policyCarry_eq, sumCarry_exactSum_const]; rfl
  case ad =>
    subst hr
    simp only [exec, execAd, andThen_loadDp_mapped _ hmap, policyCarry_eq]
    rfl
  case unmapped => exact andThen_loadDp_unmapped _ hmap

/-- Settles O36: both read the cell at DP, or fault there, and answer the exact sum. -/
theorem adsAndAdcAddWithCarry : Obligations.AdsAndAdcAddWithCarry := by
  refine ⟨rfl, rfl, fun s => ⟨fun hmap r hr => ?mapped, fun hmap => ?unmapped⟩⟩
  case mapped =>
    subst hr
    exact ⟨andThen_loadDp_mapped _ hmap, andThen_loadDp_mapped _ hmap⟩
  case unmapped => exact ⟨andThen_loadDp_unmapped _ hmap, andThen_loadDp_unmapped _ hmap⟩

/-- Settles O37, by O36 and the decimal adjustments: DAA leaves ACC + 6 without a wrap, so that
ADS sums to `n + 6`, which carries exactly where `n` is at least 10; where it does not, DAS takes the 6 away. -/
theorem decimalDigitAdditionIsCorrect : Obligations.DecimalDigitAdditionIsCorrect := by
  intro s n hnec hmap hacc hcell hn
  have hsix : (BitVec.ofNat 4 (s.acc.toNat + 6)).toNat = s.acc.toNat + 6 := by
    rw [BitVec.toNat_ofNat]
    omega
  have hsum : (BitVec.ofNat 4 (n + 6)).toNat = if 10 ≤ n then n - 10 else n + 6 := by
    have hc := Bool.toNat_le s.c
    rw [BitVec.toNat_ofNat]
    split <;> omega
  obtain ⟨-, -, hadd⟩ := adsAndAdcAddWithCarry
  obtain ⟨hmapped, -⟩ := hadd { s with acc := BitVec.ofNat 4 (s.acc.toNat + 6) }
  obtain ⟨hads, -⟩ := hmapped hmap (n + 6) <| calc
    n + 6 = s.acc.toNat + 6 + (cell s (dp s)).toNat + s.c.toNat := by omega
    _ = (BitVec.ofNat 4 (s.acc.toNat + 6)).toNat + (cell s (dp s)).toNat + s.c.toNat := by rw [hsix]
  have hcarry : decide (16 ≤ n + 6) = decide (10 ≤ n) := decide_eq_decide.2 (by omega)
  refine ⟨_, _, exec_daa_nec hnec, hads, hcarry, rfl, fun hskip => ?wraps,
    fun hskip => ⟨_, exec_das_nec hnec, ?fits, hskip⟩⟩
  case wraps =>
    have hn10 := of_decide_eq_true (hcarry.symm.trans hskip)
    exact hsum.trans (if_pos hn10)
  case fits =>
    have hn10 := of_decide_eq_false (hcarry.symm.trans hskip)
    rw [hsum, if_neg hn10, BitVec.toNat_ofNat]
    omega

/-- Settles O38: the complements as arithmetic, and EXL by its access to the cell at DP. -/
theorem logicalOperationsOnAcc : Obligations.LogicalOperationsOnAcc := by
  refine ⟨rfl, rfl, rfl, fun s => ⟨?cma, ?cia, andThen_loadDp_mapped _, andThen_loadDp_unmapped _⟩⟩
  case cma => simp only [exec, execCma, xor_ones_eq]
  case cia => simp only [exec, execCia, incNibble_xor_ones]

/-- Settles O39: the meaning of RAR read bit by bit, and five rotations of the five bits `C:ACC`. -/
theorem rarRotatesThroughCarry : Obligations.RarRotatesThroughCarry := by
  refine ⟨rfl, fun s => ⟨_, rfl, (ofBool_append_high_bits _ _).1, (ofBool_append_high_bits _ _).2, rfl, rfl⟩,
    fun s => ⟨_, _, _, _, exec_rar s, exec_rar_setCarryAcc s _, exec_rar_setCarryAcc s _,
      exec_rar_setCarryAcc s _, ?restores⟩⟩
  case restores => rw [exec_rar_setCarryAcc, rotateRight_five, setCarryAcc_carryAcc]

/-- Settles O40: the three read the cell at DP, or fault there, and write SKIP. -/
theorem cellTestsSkipOnTheirCondition : Obligations.CellTestsSkipOnTheirCondition := by
  refine ⟨rfl, fun b => ⟨congrArg ([·]) (append_eq_ofNat _ b), congrArg ([·]) (append_eq_ofNat _ b)⟩,
    fun s b => ⟨fun hmap m hm => ?mapped, fun hmap => ?unmapped⟩⟩
  case mapped =>
    subst hm
    exact ⟨andThen_loadDp_mapped _ hmap, andThen_loadDp_mapped _ hmap, andThen_loadDp_mapped _ hmap⟩
  case unmapped =>
    exact ⟨andThen_loadDp_unmapped _ hmap, andThen_loadDp_unmapped _ hmap, andThen_loadDp_unmapped _ hmap⟩

end

/-! PROOFS of the family 42_memory_operations.md: the immediate loads, the steps of DPL, and the instructions
that store to the cell at DP. -/

namespace Sys2Proof.Machine

/-! ### Counts as arithmetic (R144, R145) -/

theorem incNibble_toNat (v : Nibble) : (incNibble v).toNat = (v.toNat + 1) % 16 := by simp [incNibble]

theorem decNibble_toNat (v : Nibble) : (decNibble v).toNat = (v.toNat + 15) % 16 := by simp [decNibble]

/-! ### An instruction that stores to the cell at DP (R43, R225) -/

section
variable {s : State}

theorem andThen_storeDp_mapped (h : ramMapped s.cfg (dp s) = true) (v : Nibble) (k : State → Result) :
    andThen (storeDp s v) k = k (s.storeCell (dp s) v) := by
  rw [storeDp_ok.2 ⟨h, rfl⟩, andThen_ok]

theorem andThen_storeDp_unmapped (h : ramMapped s.cfg (dp s) = false) (v : Nibble) (k : State → Result) :
    andThen (storeDp s v) k = .fault (.unmappedRam (dp s)) := by
  rw [storeDp_error.2 ⟨h, rfl⟩, andThen_error]

/-- A count of the cell at DP, up (INM) or down (DEM): the new cell, its frame, and SKIP on the wrap. -/
theorem countCell_mapped (h : ramMapped s.cfg (dp s) = true) (count : Nibble → Nibble)
    (wraps : Nibble → Bool) :
    ∃ t, andThen (loadDp s) (fun m =>
        andThen (storeDp s (count m)) (fun u => .next { u with skip := wraps (count m) })) = .next t ∧
      cell t (dp s) = count (cell s (dp s)) ∧ (∀ a, a ≠ dp s → cell t a = cell s a) ∧
      t = { s with ram := t.ram, skip := wraps (cell t (dp s)) } := by
  have hcell := cell_storeCell_same s (dp s) (count (cell s (dp s)))
  refine ⟨{ s.storeCell (dp s) (count (cell s (dp s))) with skip := wraps (count (cell s (dp s))) },
    ?runs, hcell, fun a ha => cell_storeCell_other s (dp s) a _ ha, ?rest⟩
  case runs => rw [andThen_loadDp_mapped _ h, andThen_storeDp_mapped h]
  case rest => exact congrArg (fun m => { s.storeCell (dp s) _ with skip := wraps m }) hcell.symm

end

end Sys2Proof.Machine

section
open Sys2Proof Sys2Proof.Machine

/-- Settles O41: LI by its one next state (`exec_li`), and LDI puts the two halves of its byte into DP. -/
theorem immediateLoads : Obligations.ImmediateLoads := by
  refine fun s => ⟨fun n => ?li, fun imm8 => ⟨s.setDp imm8, rfl, dp_setDp s imm8, ?dph, ?dpl, rfl⟩⟩
  case li => simp only [exec_li, highNibble_eq_nine]
  case dph => exact highNibble_toNat imm8
  case dpl => exact lowNibble_toNat imm8

/-- Settles O42: the new DPL as a number, and its wrap as a test of the old DPL. -/
theorem ldzIndDedMoveThePointer : Obligations.LdzIndDedMoveThePointer := by
  refine ⟨fun n => congrArg ([·]) (append_eq_ofNat _ n), rfl, rfl, fun n s => ⟨rfl, ?ind, ?ded⟩⟩
  case ind => simp only [exec, execInd, wrapsUp_incNibble]; rw [incNibble_eq]
  case ded => simp only [exec, execDed, wrapsDown_decNibble]; rw [decNibble_eq]

/-- Settles O43: S stores once; INM and DEM are one count of the cell at DP (`countCell_mapped`). -/
theorem storeAndCountTheCellAtDp : Obligations.StoreAndCountTheCellAtDp := by
  refine ⟨rfl, rfl, rfl, fun s => ⟨fun hmap => ⟨?store, ?inm, ?dem⟩, fun hmap => ?unmapped⟩⟩
  case store =>
    exact ⟨s.storeCell (dp s) s.acc, andThen_storeDp_mapped hmap _ _, cell_storeCell_same s (dp s) s.acc,
      fun a ha => cell_storeCell_other s (dp s) a _ ha, rfl⟩
  case inm =>
    obtain ⟨t, hrun, hcell, hframe, hrest⟩ := countCell_mapped hmap incNibble wrapsUp
    exact ⟨t, hrun, by rw [hcell, incNibble_toNat], hframe, hrest⟩
  case dem =>
    obtain ⟨t, hrun, hcell, hframe, hrest⟩ := countCell_mapped hmap decNibble wrapsDown
    exact ⟨t, hrun, by rw [hcell, decNibble_toNat], hframe, hrest⟩
  case unmapped =>
    exact ⟨andThen_storeDp_unmapped hmap _ _, andThen_loadDp_unmapped _ hmap, andThen_loadDp_unmapped _ hmap⟩

end

/-! PROOFS of the family 44_bit_manipulation.md: the bit tests of FLAG and ACC, and the set and reset of one
bit of FLAG and of the cell at DP. -/

namespace Sys2Proof.Machine

/-! ### The test for a 0 bit (R160) -/

/-- FBF's condition as arithmetic: the bit of weight `2 ^ b` is 0. -/
theorem not_bitOf_eq (v : Nibble) (b : BitVec 2) :
    (!bitOf v b) = decide (v.toNat / 2 ^ b.toNat % 2 = 0) := by
  rw [bitOf_eq, ← decide_not]
  exact decide_eq_decide.2 Nat.mod_two_ne_one

/-! ### An instruction that only changes the cell at DP (R168, R172) -/

section
variable {s : State}

/-- One read and one write of the cell at DP: the new cell, the other cells, and nothing beside RAM. -/
theorem changeCell_mapped (h : ramMapped s.cfg (dp s) = true) (change : Nibble → Nibble) :
    ∃ t, andThen (loadDp s) (fun m => andThen (storeDp s (change m)) .next) = .next t ∧
      t = { s with ram := t.ram } ∧ (∀ a, a ≠ dp s → cell t a = cell s a) ∧
      cell t (dp s) = change (cell s (dp s)) := by
  refine ⟨s.storeCell (dp s) (change (cell s (dp s))), ?runs, rfl,
    fun a ha => cell_storeCell_other s (dp s) a _ ha, cell_storeCell_same s (dp s) _⟩
  case runs => rw [andThen_loadDp_mapped _ h, andThen_storeDp_mapped h]

/-- The same bit by bit, for a change that gives bit `j` of every value `v` as `bit j v` (SMB, RMB). -/
theorem changeCell_mapped_bits (h : ramMapped s.cfg (dp s) = true) {change : Nibble → Nibble}
    {bit : Nat → Nibble → Bool} (hbit : ∀ v, ∀ j < 4, (change v).getLsbD j = bit j v) :
    ∃ t, andThen (loadDp s) (fun m => andThen (storeDp s (change m)) .next) = .next t ∧
      t = { s with ram := t.ram } ∧ (∀ a, a ≠ dp s → cell t a = cell s a) ∧
      ∀ j < 4, (cell t (dp s)).getLsbD j = bit j (cell s (dp s)) := by
  obtain ⟨t, hrun, hrest, hframe, hcell⟩ := changeCell_mapped h change
  exact ⟨t, hrun, hrest, hframe, hcell ▸ hbit _⟩

end

end Sys2Proof.Machine

section
open Sys2Proof Sys2Proof.Machine

/-- Settles O46: the tested bit as arithmetic (`bitOf_eq`), and the forced FLAG bit by bit. -/
theorem flagBitsAreTestedSetAndReset : Obligations.FlagBitsAreTestedSetAndReset := by
  refine fun b => ⟨?encodings, fun s => ⟨?fbf, ?fbt, ?tab, ?sfb, ?rfb⟩⟩
  case encodings => refine ⟨?_, ?_, ?_, ?_, ?_⟩ <;> exact congrArg ([·]) (append_eq_ofNat _ b)
  case fbf => simp only [exec, execFbf, not_bitOf_eq]
  case fbt => simp only [exec, execFbt, bitOf_eq]
  case tab => simp only [exec, execTab, bitOf_eq]
  case sfb => exact ⟨setBit s.flag b, rfl, setBit_bit s.flag b⟩
  case rfb => exact ⟨clearBit s.flag b, rfl, clearBit_bit s.flag b⟩

/-- Settles O47: SMB and RMB are one change of the cell at DP (`changeCell_mapped_bits`), or fault there. -/
theorem smbAndRmbForceOneCellBit : Obligations.SmbAndRmbForceOneCellBit := by
  refine fun b => ⟨congrArg ([·]) (append_eq_ofNat _ b), congrArg ([·]) (append_eq_ofNat _ b),
    fun s => ⟨fun hmap => ⟨?smb, ?rmb⟩, fun hmap => ?unmapped⟩⟩
  case smb => exact changeCell_mapped_bits hmap fun v => setBit_bit v b
  case rmb => exact changeCell_mapped_bits hmap fun v => clearBit_bit v b
  case unmapped => exact ⟨andThen_loadDp_unmapped _ hmap, andThen_loadDp_unmapped _ hmap⟩

end

/-! PROOFS of the family 45_jump_call.md: the address bytes of JMP, the jumps within a page, and the calls
with room on the stack and without. -/

namespace Sys2Proof.Machine

/-! ### The address in the two bytes of a jump (R63) -/

theorem highThree_toNat (a : BitVec 11) : (a.extractLsb' 8 3).toNat = a.toNat / 256 := by
  have := a.isLt
  simp only [BitVec.extractLsb'_toNat, Nat.shiftRight_eq_div_pow]
  omega

theorem lowByte_eq_ofNat (a : BitVec 11) : a.extractLsb' 0 8 = BitVec.ofNat 8 a.toNat := rfl

/-! ### Jump targets as addresses (R182, R183, R185) -/

/-- A word is the number it stands for, in whatever form that number is known. -/
theorem eq_ofNat_of_toNat {w k : Nat} {v : BitVec w} (h : v.toNat = k) : v = BitVec.ofNat w k := by
  rw [← h, BitVec.ofNat_toNat, BitVec.setWidth_eq]

theorem pageTarget_eq_ofNat (pc : PAddr) (o : BitVec 6) :
    pageTarget pc o = BitVec.ofNat 11 (pc.toNat / 64 * 64 + o.toNat) :=
  eq_ofNat_of_toNat (pageTarget_toNat pc o)

theorem indexedTarget_eq_ofNat (pc : PAddr) (acc : Nibble) :
    indexedTarget pc acc = BitVec.ofNat 11 (pc.toNat / 64 * 64 + 4 * acc.toNat) :=
  eq_ofNat_of_toNat (indexedTarget_toNat pc acc)

theorem zeroPageTarget_eq_ofNat (n : BitVec 4) : zeroPageTarget n = BitVec.ofNat 11 (4 * n.toNat) :=
  eq_ofNat_of_toNat (zeroPageTarget_toNat n)

/-! ### A call, by the room on the stack (R22, R222) -/

section
variable {s : State}

theorem andThen_callTo_room (h : s.stack.length < s.cfg.stackDepth) (target : PAddr) (k : State → Result) :
    andThen (callTo s target) k = k { s with stack := s.pc :: s.stack, pc := target } := by
  rw [callTo_ok.2 ⟨h, rfl⟩, andThen_ok]

theorem andThen_callTo_full (h : s.cfg.stackDepth ≤ s.stack.length) (target : PAddr) (k : State → Result) :
    andThen (callTo s target) k = .fault (.stackOverflow s.pc) := by
  rw [callTo_error.2 ⟨h, rfl⟩, andThen_error]

end

end Sys2Proof.Machine

section
open Sys2Proof Sys2Proof.Machine

/-- Settles O49: the two fields of the address as numbers, and JMP's meaning as a record update. -/
theorem jmpLoadsPc : Obligations.JmpLoadsPc := by
  refine fun a => ⟨?encoding, fun s => rfl⟩
  have hfirst : 0b10100#5 ++ a.extractLsb' 8 3 = BitVec.ofNat 8 (0xA0 + a.toNat / 256) := by
    rw [append_eq_ofNat, highThree_toNat]; rfl
  exact congrArg₂ ([·, ·]) hfirst (lowByte_eq_ofNat a)

/-- Settles O50: both jumps write pc only, with an address in its page. -/
theorem pageJumpsStayInThePage : Obligations.PageJumpsStayInThePage := by
  refine fun o s => ⟨?jcp, ?jpa⟩
  case jcp => simp only [exec, execJcp, pageTarget_eq_ofNat]
  case jpa => simp only [exec, execJpa, indexedTarget_eq_ofNat]

/-- Settles O51: CAL and CZP are one call (`callTo`), which turns on the room on the stack alone. -/
theorem callsPushTheAdvancedPc : Obligations.CallsPushTheAdvancedPc := by
  refine fun a n s => ⟨fun hroom => ⟨?cal, ?czp⟩, fun hfull => ?overflow⟩
  case cal => exact andThen_callTo_room hroom a _
  case czp =>
    rw [← zeroPageTarget_eq_ofNat]
    exact andThen_callTo_room hroom (zeroPageTarget n) _
  case overflow => exact ⟨andThen_callTo_full hfull a _, andThen_callTo_full hfull (zeroPageTarget n) _⟩

end

/-! PROOFS of the family 48_special.md: the exchange of ACC with the cell at DP, the load, and the exchange that
undoes itself. -/

namespace Sys2Proof.Machine

/-! ### The exchange of ACC with the cell at DP (R205, R206, decision D26) -/

/-- The state that the exchange of XM, XMI and XMD leaves where DP is mapped (`exchangeCell_ok`). -/
def State.exchanged (s : State) (x : BitVec 2) : State :=
  { s.storeCell (dp s) s.acc with acc := cell s (dp s), dph := xorHigh s.dph x }

section
variable {s : State} (x : BitVec 2)

theorem andThen_exchangeCell_mapped (h : ramMapped s.cfg (dp s) = true) (k : State → Result) :
    andThen (exchangeCell x s) k = k (s.exchanged x) := by
  rw [exchangeCell_ok.2 ⟨h, rfl⟩, andThen_ok, State.exchanged]

theorem andThen_exchangeCell_unmapped (h : ramMapped s.cfg (dp s) = false) (k : State → Result) :
    andThen (exchangeCell x s) k = .fault (.unmappedRam (dp s)) := by
  rw [exchangeCell_error.2 ⟨h, rfl⟩, andThen_error]

variable (s)

/-- The exchanged cell holds what ACC held. -/
theorem cell_exchanged_same : cell (s.exchanged x) (dp s) = s.acc := cell_storeCell_same s (dp s) s.acc

/-- Every other cell reads as before. -/
theorem cell_exchanged_other {a : Byte} (ha : a ≠ dp s) : cell (s.exchanged x) a = cell s a :=
  cell_storeCell_other s (dp s) a s.acc ha

/-- The new DPH with the operand as a number (R205(b)). -/
theorem xorHigh_eq_ofNat (dph : Nibble) : xorHigh dph x = dph ^^^ BitVec.ofNat 4 x.toNat := by
  rw [BitVec.ofNat_toNat, xorHigh]

/-! ### A pure exchange: the operand 0 (R206, corner cases) -/

theorem xorHigh_zero (dph : Nibble) : xorHigh dph 0 = dph := by simp [xorHigh]

/-- A pure exchange leaves DP where it was, so that a second one meets the same cell. -/
theorem dp_exchanged_zero : dp (s.exchanged 0) = dp s := congrArg (· ++ s.dpl) (xorHigh_zero s.dph)

/-- ACC gets back what the cell took from it. -/
theorem acc_exchanged_twice : ((s.exchanged 0).exchanged 0).acc = s.acc := calc
  cell (s.exchanged 0) (dp (s.exchanged 0)) = cell (s.exchanged 0) (dp s) := by rw [dp_exchanged_zero]
  _ = s.acc := cell_exchanged_same s 0

/-- The cell gets back what ACC took from it, and no other cell moves. -/
theorem cell_exchanged_twice (a : Byte) : cell ((s.exchanged 0).exchanged 0) a = cell s a := by
  have hdp := dp_exchanged_zero s
  by_cases ha : a = dp s
  · calc cell ((s.exchanged 0).exchanged 0) a
        = cell ((s.exchanged 0).exchanged 0) (dp (s.exchanged 0)) := by rw [hdp, ha]
      _ = cell s (dp s) := cell_exchanged_same (s.exchanged 0) 0
      _ = cell s a := by rw [ha]
  · calc cell ((s.exchanged 0).exchanged 0) a
        = cell (s.exchanged 0) a := cell_exchanged_other (s.exchanged 0) 0 (by rwa [hdp])
      _ = cell s a := cell_exchanged_other s 0 ha

/-- Nothing beside RAM moves: ACC is back, and the two XORs of DPH cancel. -/
theorem exchanged_twice_eq :
    (s.exchanged 0).exchanged 0 = { s with ram := ((s.exchanged 0).exchanged 0).ram } :=
  congrArg₂ (fun v d => { (s.exchanged 0).exchanged 0 with acc := v, dph := d })
    (acc_exchanged_twice s) (xorHigh_xorHigh s.dph 0)

end

end Sys2Proof.Machine

section
open Sys2Proof Sys2Proof.Machine

/-- Settles O57: DP stays, so the second exchange meets the same cell and undoes the first. -/
theorem twoPureExchangesRestore : Obligations.TwoPureExchangesRestore := by
  intro s hmap
  have hmap' : ramMapped (s.exchanged 0).cfg (dp (s.exchanged 0)) = true := by
    rw [dp_exchanged_zero]
    exact hmap
  exact ⟨s.exchanged 0, (s.exchanged 0).exchanged 0, andThen_exchangeCell_mapped 0 hmap _,
    andThen_exchangeCell_mapped 0 hmap' _, acc_exchanged_twice s, cell_exchanged_twice s,
    exchanged_twice_eq s⟩

/-- Settles O56: one exchange (`State.exchanged`) for XM, XMI and XMD, followed by the count of DPL as
arithmetic; one load for LM. -/
theorem exchangesWithTheCellAtDp : Obligations.ExchangesWithTheCellAtDp := by
  intro x s h m hh hm
  rw [← xorHigh_eq_ofNat] at hh
  subst hh hm
  have hframe : ∀ a, a ≠ dp s → cell (s.exchanged x) a = cell s a := fun a ha => cell_exchanged_other s x ha
  refine ⟨fun hmap => ?lm, fun hmap => ⟨?xm, ?xmi, ?xmd⟩, fun hmap => ?unmapped⟩
  case lm => exact andThen_loadDp_mapped _ hmap
  case xm => exact ⟨_, andThen_exchangeCell_mapped x hmap _, rfl, cell_exchanged_same s x, hframe⟩
  case xmi =>
    refine ⟨_, andThen_exchangeCell_mapped x hmap _, ?_, cell_exchanged_same s x, hframe⟩
    rw [wrapsUp_incNibble, incNibble_eq]
    rfl
  case xmd =>
    refine ⟨_, andThen_exchangeCell_mapped x hmap _, ?_, cell_exchanged_same s x, hframe⟩
    rw [wrapsDown_decNibble, decNibble_eq]
    rfl
  case unmapped =>
    exact ⟨andThen_loadDp_unmapped _ hmap, andThen_exchangeCell_unmapped x hmap _,
      andThen_exchangeCell_unmapped x hmap _, andThen_exchangeCell_unmapped x hmap _⟩

end

/-! PROOFS of the family 60_exceptions.md: the events of a step boundary, the interrupt and its entry, the count
of the timer, and runs without a request. -/

namespace Sys2Proof.Machine

/-! ### The timer (R241, R243) -/

section
variable {s : State} {k : Nat}

/-- Under TIMER_MODEL = loose an expiry of a running timer sets T and stops it. -/
theorem timerExpire_running (hloose : s.cfg.timerModel = .loose) (hrun : s.timer = .running k) :
    timerExpire s = { s with t := true, timer := .idle } := by
  simp only [timerExpire, hloose, expireTimer, hrun]

/-- An expiry is no event under TIMER_MODEL = cycle_exact, and does nothing to an idle timer. -/
theorem timerExpire_eq_self (h : s.cfg.timerModel = .cycleExact ∨ s.timer = .idle) : timerExpire s = s := by
  unfold timerExpire
  split
  · next hloose =>
    have hidle : s.timer = .idle := h.resolve_left (by simp [hloose])
    simp only [expireTimer, hidle]
  · rfl

/-- `timerExpire_running` or `timerExpire_eq_self` applies in every state. -/
theorem timer_expires_or_not (s : State) :
    (∃ k, s.cfg.timerModel = .loose ∧ s.timer = .running k) ∨
      (s.cfg.timerModel = .cycleExact ∨ s.timer = .idle) := by
  cases hmodel : s.cfg.timerModel with
  | cycleExact => exact .inr (.inl rfl)
  | loose =>
    cases hrun : s.timer with
    | idle => exact .inr (.inr rfl)
    | running k => exact .inl ⟨k, rfl, rfl⟩

theorem countCycles_eq_self (h : s.cfg.timerModel = .loose ∨ s.timer = .idle ∨ s.prev = 0x14) (n : Nat) :
    countCycles n s = s := by
  unfold countCycles
  split
  · rfl
  · next hexact =>
    obtain hidle | hstm := h.resolve_left (by simp [hexact])
    · simp only [tick, hidle, ite_self]
    · exact if_pos hstm

/-- Where the cycles count, they are those of a running timer. -/
theorem countCycles_running (hexact : s.cfg.timerModel = .cycleExact) (hrun : s.timer = .running k)
    (hprev : s.prev ≠ 0x14) (n : Nat) :
    countCycles n s =
      if n < k then { s with timer := .running (k - n) } else { s with t := true, timer := .idle } := by
  simp only [countCycles, hexact, if_neg hprev, tick, hrun]

end

/-! ### The boundary (R226, R231, R241) -/

section
variable {s : State} {b : Boundary} {rest : List Boundary}

/-- IF becomes IF or the request, and nothing else moves (R226). -/
theorem intRequest_if (request : Bool) (s : State) :
    (if request then intRequest s else s) = { s with intf := s.intf || request } := by
  cases request with
  | false => simp
  | true => simp [intRequest]

theorem boundary_of_expiry {k : Nat} (hev : s.events = b :: rest) (hb : b.timerExpire = true)
    (hloose : s.cfg.timerModel = .loose) (hrun : s.timer = .running k) :
    boundary s =
      { s with events := rest, intf := s.intf || b.intRequest, t := true, timer := .idle } := by
  have hexpire := timerExpire_running (s := { s with events := rest }) hloose hrun
  simp only [boundary, hev, applyBoundary, if_pos hb, hexpire, intRequest_if]

theorem boundary_of_no_expiry (hev : s.events = b :: rest)
    (h : b.timerExpire = false ∨ s.cfg.timerModel = .cycleExact ∨ s.timer = .idle) :
    boundary s = { s with events := rest, intf := s.intf || b.intRequest } := by
  have hstill : (if b.timerExpire then timerExpire { s with events := rest } else { s with events := rest }) =
      { s with events := rest } := by
    cases hb : b.timerExpire with
    | false => rfl
    | true => exact timerExpire_eq_self (h.resolve_left (by simp [hb]))
  simp only [boundary, hev, applyBoundary, hstill, intRequest_if]

end

theorem boundary_of_nil {s : State} (h : s.events = []) : boundary s = timerExpire s := by
  simp only [boundary, h]

/-! ### The interrupt (R230, R232) -/

/-- The five terms of R230, LI's range as arithmetic. -/
theorem acceptInterrupt_eq_true {s : State} (hie : s.ie = true) (hif : s.intf = true) (hskip : s.skip = false)
    (hli : s.prev.toNat / 16 ≠ 9) (hei : s.prev ≠ 0x31) : acceptInterrupt s = true :=
  acceptInterrupt_iff.2 ⟨hie, hif, hskip, mt (highNibble_eq_nine s.prev).1 hli, hei⟩

theorem acceptInterrupt_of_intf {s : State} (h : s.intf = false) : acceptInterrupt s = false := by
  simp [acceptInterrupt, h]

theorem step_of_acceptInterrupt {s : State} (h : acceptInterrupt (boundary s) = true) :
    step s = interruptStep (boundary s) := if_pos h

theorem step_of_not_acceptInterrupt {s : State} (h : acceptInterrupt (boundary s) = false) :
    step s = fetchAndExecute (boundary s) := by
  simp [step, h]

/-- Interrupt entry by the room on the stack (R222). -/
theorem interruptStep_eq (s : State) :
    interruptStep s =
      if s.stack.length < s.cfg.stackDepth then
        .next (countCycles 1 { s with
          stack := s.pc :: s.stack, pc := s.cfg.intVector, intf := false, ie := false, prev := 0x00 })
      else .fault (.stackOverflow s.pc) := by
  unfold interruptStep
  split
  · next hroom => rw [interruptEntry_ok.2 ⟨hroom, rfl⟩, andThen_ok]
  · next hfull => rw [interruptEntry_error.2 ⟨by omega, rfl⟩, andThen_error]

/-! ### Runs without a request -/

/-- The launch premise of 60_exceptions.md as an invariant: no request is pending and none will come. -/
structure State.Quiet (s : State) : Prop where
  noRequests : s.noRequests
  intf : s.intf = false

/-- A step takes its own boundary off the schedule and leaves the rest. -/
theorem step_events {s t : State} (h : step s = .next t) : t.events = s.events.tail := by
  obtain ⟨-, u, hu, rfl⟩ | ⟨-, -, f, -, rfl⟩ | ⟨-, -, f, i, rest, u, -, -, hu, rfl⟩ := step_next_cases h
  · obtain ⟨-, rfl⟩ := interruptEntry_ok.1 hu
    simp
  · simp
  · simp [(exec_writes hu).events]

/-- No instruction sets IF: TIT, its only writer, clears it (R195). -/
theorem exec_keeps_intf_clear {i : Instr} {s t : State} (h : exec i s = .next t) (hs : s.intf = false) :
    t.intf = false := by
  by_cases hsame : t.intf = s.intf
  · exact hsame.trans hs
  · obtain rfl := (exec_writes h).intf hsame
    cases h
    rfl

/-- No request comes at the boundary of a quiet state. -/
theorem State.Quiet.boundary_intf {s : State} (hs : s.Quiet) : (boundary s).intf = false := by
  rw [Machine.boundary_intf, hs.intf]
  cases hev : s.events with
  | nil => rfl
  | cons b rest => exact hs.noRequests b (by simp [hev])

theorem State.Quiet.step {s t : State} (hs : s.Quiet) (h : step s = .next t) : t.Quiet where
  noRequests := fun b hb => hs.noRequests b (List.mem_of_mem_tail (step_events h ▸ hb))
  intf := by
    obtain ⟨-, u, hu, rfl⟩ | ⟨-, -, f, -, rfl⟩ | ⟨-, -, f, i, rest, u, -, -, hu, rfl⟩ := step_next_cases h
    · obtain ⟨-, rfl⟩ := interruptEntry_ok.1 hu
      simp
    · simpa using hs.boundary_intf
    · simpa using exec_keeps_intf_clear hu hs.boundary_intf

theorem State.Quiet.run {k : Nat} {s t : State} (hs : s.Quiet)
    (h : Host.Core.run Sys2Proof.core k s = .next t) : t.Quiet := by
  induction k generalizing s with
  | zero =>
    rw [core_run_zero] at h
    cases h
    exact hs
  | succ k ih =>
    obtain ⟨u, hstep, hrun⟩ := core_run_succ.1 h
    exact ih (hs.step hstep) hrun

end Sys2Proof.Machine

section
open Sys2Proof Sys2Proof.Machine

/-- Settles O25, by the invariant `State.Quiet` along the run: IF is one of the five terms of acceptance. -/
theorem noRequestNoInterrupt : Obligations.NoRequestNoInterrupt := by
  intro k s t hreq hif hrun
  have ht : t.Quiet := State.Quiet.run ⟨hreq, hif⟩ hrun
  exact ⟨ht.intf, acceptInterrupt_of_intf ht.boundary_intf⟩

/-- Settles O8: the five terms decide which branch of `step` runs, the room on the stack what entry does. -/
theorem interruptIsTakenExactlyWhenAcceptable : Obligations.InterruptIsTakenExactlyWhenAcceptable := by
  rintro s b rfl
  refine ⟨fun hie hif hskip hli hei => ?taken, fun hfails => ?notTaken⟩
  case taken =>
    rw [step_of_acceptInterrupt (acceptInterrupt_eq_true hie hif hskip hli hei), interruptStep_eq]
  case notTaken =>
    have hno : acceptInterrupt (boundary s) = false := by
      obtain hie | hif | hskip | hli | hei := hfails
      · exact acceptInterrupt_of_ie hie
      · exact acceptInterrupt_of_intf hif
      · exact acceptInterrupt_of_skip hskip
      · exact acceptInterrupt_of_prev_li ((highNibble_eq_nine _).2 hli)
      · exact acceptInterrupt_of_prev_ei hei
    exact ⟨hno, step_of_not_acceptInterrupt hno⟩

/-- Settles O10: with a boundary at the head of the schedule the timer either expires (`boundary_of_expiry`) or
stays (`boundary_of_no_expiry`), and the request is beside it; an exhausted schedule is one expiry. -/
theorem boundaryEventsActOnTheirFlagsOnly : Obligations.BoundaryEventsActOnTheirFlagsOnly := by
  refine ⟨fun s b rest hev => ?scheduled, fun s hev => ?exhausted⟩
  case scheduled =>
    refine ⟨?frame, ?request, fun k hb hloose hrun => ?expires, fun h => ?still⟩
    case frame =>
      cases hb : b.timerExpire with
      | false => rw [boundary_of_no_expiry hev (.inl hb)]
      | true =>
        obtain ⟨k, hloose, hrun⟩ | hstill := timer_expires_or_not s
        · rw [boundary_of_expiry hev hb hloose hrun]
        · rw [boundary_of_no_expiry hev (.inr hstill)]
    case request => simp [boundary_intf, hev]
    case expires =>
      rw [boundary_of_expiry hev hb hloose hrun]
      exact ⟨rfl, rfl⟩
    case still =>
      rw [boundary_of_no_expiry hev h]
      exact ⟨rfl, rfl⟩
  case exhausted =>
    rw [boundary_of_nil hev]
    exact ⟨fun _ => timerExpire_running, timerExpire_eq_self⟩

/-- Settles O11: the cycles count in one case only, by the comparison with what is left. -/
theorem cyclesCountDownTheTimer : Obligations.CyclesCountDownTheTimer := by
  refine fun s n => ⟨fun h => countCycles_eq_self h n, fun k hexact hrun hprev => ?_⟩
  rw [countCycles_running hexact hrun hprev]
  exact ⟨fun hlt => if_pos hlt, fun hle => if_neg (by omega)⟩

end

/-! ## Words written out in the spec (95_test_vectors.md part 1) -/

namespace Sys2Proof

/-- A word is read off the encoder: bytes that encode an instruction decode to it, and nothing is left. -/
theorem decode_of_encode_eq {i : Instr} {bytes : List Byte} (h : encode i = bytes) :
    decode bytes = .ok (i, []) := by
  have hd := decode_encode i []
  rwa [List.append_nil, h] at hd

end Sys2Proof

section
open Sys2Proof

/-- Settles O5: each word is the encoding of its instruction (`decode_of_encode_eq`), prefixes of CI, CLI and
STM and the high address bits of JMP and CAL included. -/
theorem wordsOfTheSpecDecode : Obligations.WordsOfTheSpecDecode := by
  have hli : encode (.li 5) = [0x95] := rfl
  have hci : encode (.ci 0xC 10) = [0x17, 0xCA] := rfl
  have hjmp : encode (.jmp 0x123) = [0xA1, 0x23] := rfl
  have hcal : encode (.cal 0x123) = [0xA9, 0x23] := rfl
  have hcli : encode (.cli 0xE 9) = [0x16, 0xE9] := rfl
  have hstm : encode (.stm 2 9) = [0x14, 0x89] := rfl
  have hczp : encode (.czp 1) = [0xB1] := rfl
  have hldz : encode (.ldz 12) = [0x8C] := rfl
  have htab : encode (.tab 2) = [0x26] := rfl
  have hsfb : encode (.sfb 2) = [0x7E] := rfl
  exact ⟨decode_of_encode_eq hli, decode_of_encode_eq hci, decode_of_encode_eq hjmp,
    decode_of_encode_eq hcal, decode_of_encode_eq hcli, decode_of_encode_eq hstm,
    decode_of_encode_eq hczp, decode_of_encode_eq hldz, decode_of_encode_eq htab,
    decode_of_encode_eq hsfb⟩

end
